-- ==== Sys2Proof/Word.lean ====
section
/-! DEFINITION. The word types of the telegrams (07 R137). -/

namespace Sys2Proof

/-- A character of a line: eight data bits (00 section 0.8). -/
abbrev Byte := BitVec 8

/-- A body word or check word of a telegram (07 R137). -/
abbrev Word := BitVec 16

end Sys2Proof
end

