-- ==== Sys2Proof/Syntax.lean ====
section
/-! DEFINITION. The operands and the commands: one constructor of `Instr` for each row of spec/opcode_table.json. -/

namespace Sys2Proof

/-- The field lines (00 section 0.1). -/
inductive FLine | f1 | f2 | f3
  deriving DecidableEq, Repr

/-- The four lines. -/
inductive LineId | d | field (l : FLine)
  deriving DecidableEq, Repr

/-- 07 Table 7.3. -/
inductive Kind | poll | report | order | orderAck | alert | ask | answer | notice
  deriving DecidableEq, Repr

/-- A good telegram (07 Table 7.1): its envelope bytes are present on the desk line only. -/
structure Telegram where
  dest : Nat
  src : Nat
  kind : Kind
  replyExpected : Bool
  rept : Bool
  tag : Nat
  env : Option (Byte × Byte)
  body : List Word
  deriving DecidableEq, Repr

/-- What a line unit received between two idle gaps (07 R142): the characters, and what was wrong with them. -/
structure Reception where
  bytes : List Byte
  charError : Bool   -- a parity or stop-bit error
  brokenOff : Bool   -- the line fell idle for more than 2 character times before the end
  noGap : Bool       -- no idle gap of 4 character times before the first character
  deriving DecidableEq, Repr

/-- A desk POLL or ORDER with its envelope decoded (07 Table 7.2). -/
structure DeskTelegram where
  order : Bool
  dest : Nat
  replyExpected : Bool
  tag : Nat
  forced1 : Bool
  forced2 : Bool
  forced3 : Bool
  learnInhibit : Bool
  body : List Word
  deriving DecidableEq, Repr

/-- The tag and repeat flag of an ASK (10 R192, R194). -/
structure AskHead where
  tag : Nat
  rep : Bool
  deriving DecidableEq, Repr

inductive Construction | column | spiral
  deriving DecidableEq, Repr

/-- The per-lift fields of a holder record (01 Table 1.1). -/
structure Lift where
  stroke : Nat
  capacity : Nat
  step : Nat
  deriving DecidableEq, Repr

/-- 01 Table 1.1. -/
structure HolderRec where
  inService : Bool
  construction : Construction
  fastRise : Nat
  lifts : Nat
  lift1 : Lift
  lift2 : Lift
  lift3 : Lift
  lift4 : Lift
  margin : Nat
  reserve : Nat
  highWarning : Nat
  topLimit : Nat
  topHyst : Nat
  cupBand : Nat
  blindGrace : Nat
  gauge : Nat
  inlet : Nat
  outlet : Nat
  deriving DecidableEq, Repr

/-- What a WRITE ENTRY to a valve record carries (02 R32). -/
structure ValveRec where
  number : Nat
  station : Nat
  travel : Nat
  deriving DecidableEq, Repr

/-- A profile segment (04 R81). -/
structure Segment where
  start : Nat
  setpoint : Nat
  deriving DecidableEq, Repr

/-- 04 Table 4.1; `profFlag` none is NONE. -/
structure DistrictRec where
  inService : Bool
  auto : Bool
  governor : Nat
  recorder : Nat
  meter : Nat
  headGain : Int
  floor : Nat
  profA : List Segment
  profB : List Segment
  profFlag : Option Nat
  deadBand : Nat
  settle : Nat
  rank : Nat
  boost : Bool
  deriving DecidableEq, Repr

/-- What a WRITE ENTRY to a booster record carries (05 R101). -/
structure BoosterRec where
  station : Nat
  inService : Bool
  lift : Nat
  allowance : Nat
  deriving DecidableEq, Repr

/-- 10 Table 10.4; `aging` none is OFF. -/
structure YardRec where
  park : Nat
  turnPeriod : Nat
  margin : Nat
  mark1 : Nat
  mark2 : Nat
  mark3 : Nat
  hyst : Nat
  recovery : Nat
  cut1 : Nat
  cut2 : Nat
  cut3 : Nat
  releaseHold : Nat
  makeMeter : Option Nat
  tolerance : Nat
  interval : Nat
  aging : Option Nat
  cyclePeriod : Nat
  lostThreshold : Nat
  autoRun : Bool
  deriving DecidableEq, Repr

/-- 07 Table 7.12. -/
structure LineSet where
  rate : Nat
  w1 : Nat
  w2 : Nat
  budget : Nat
  deriving DecidableEq, Repr

/-- 09 Table 9.1. -/
structure PollRec where
  station : Nat
  enabled : Bool
  retries : Nat
  cls : Nat
  mask : Word
  copy : Bool
  nth : Nat
  deriving DecidableEq, Repr

/-- What a desk directory write carries (08 R165); `line` none is UNLOCATED; bit i of `groups` is group 200 + i. -/
structure DirWrite where
  station : Nat
  line : Option FLine
  groups : BitVec 12
  deriving DecidableEq, Repr

/-- 03 R72. -/
structure DrawRec where
  list : List Nat
  count : Nat
  deriving DecidableEq, Repr

/-- The guarded records (11 R208); a rota turn by its number. -/
inductive RecordRef
  | holder (n : Nat) | valve (n : Nat) | district (n : Nat) | booster (n : Nat) | meter (n : Nat) | yard
  | line (l : FLine) | poll (n : Nat) | directory (station : Nat) | turnWork (i : Nat) | turnPend (i : Nat)
  | draw | drawMode | poolMode
  deriving DecidableEq, Repr

/-- What the check bits of a record show at a read (11 R208, R209). -/
inductive Flip | single | double
  deriving DecidableEq, Repr

/-- The bit errors that the reads of one step find: an input of the step (log entry 10). -/
abbrev Findings := List (RecordRef × Flip)

/-- How the serial store answers at start-up (11 R212): whether it answers, and the blocks whose check word fails. -/
structure StoreRead where
  answers : Bool
  failed : List Nat
  deriving DecidableEq, Repr

/-- An ASK's request and arguments as its words give them, ranges unchecked (10 Table 10.1). -/
inductive Request
  | readEntry (table index part : Nat)
  | writeEntry (table index part : Nat) (final empty : Bool) (words : List Word)
  | run | hold | standby | restart
  | setClock (day second : Nat)
  | setFlags (codes : Word)
  | readNotices (count : Nat)
  | readCounts (group clear : Nat)
  | watch (station setting : Nat)
  | search (start line kind group : Nat)
  | delete (station : Nat)
  | clear | tableCheck
  | storeTables (skip : Word)
  | readHolder (n : Nat)
  | bar (n sel : Nat)
  | unbar (n sel : Nat)
  | clearFault (n : Nat)
  | readValve (n : Nat)
  | loadRota (turns : List Nat)
  | startRota | stopRota
  | setDrawMode (mode : Nat)
  | setDistrictMode (n mode : Nat)
  | readDistrict (n : Nat)
  | setPoolMode (mode : Nat)
  | freeBooster (n : Nat)
  | readBoosters
  | readAccount (pick part : Nat)
  | releaseAccount (number : Nat)
  deriving DecidableEq, Repr

/-- The commands: one constructor for each row of spec/opcode_table.json.
A request row is the taking of that ASK by the desk request unit; its operands are the ASK's header and argument words. -/
inductive Instr
  | powerOnReset (r : StoreRead)
  | autoRun
  | lineError (l : LineId) (r : Reception)
  | deskTelegramReceived (r : Reception)
  | deskBufferServe (fs : Findings)
  | deskTransmitDone
  | askMalformed (h : AskHead) (body : List Word)
  | askRepeat (h : AskHead) (body : List Word)
  | readEntry (h : AskHead) (table index part : Nat) (fs : Findings)
  | writeEntryPart (h : AskHead) (table index part : Nat) (empty : Bool) (words : List Word)
  | writeHolderRecord (h : AskHead) (n : Nat) (r : HolderRec)
  | writeValveRecord (h : AskHead) (n : Nat) (r : ValveRec)
  | writeDistrictRecord (h : AskHead) (n : Nat) (r : DistrictRec)
  | writeBoosterRecord (h : AskHead) (n : Nat) (r : BoosterRec)
  | writeMeterEntry (h : AskHead) (n weight limit : Nat)
  | writeYardRecord (h : AskHead) (r : YardRec)
  | writeLineTable (h : AskHead) (n : Nat) (r : LineSet)
  | writePollPosition (h : AskHead) (n : Nat) (r : Option PollRec)
  | writeDirectoryEntry (h : AskHead) (n : Nat) (r : DirWrite)
  | writeDrawRecord (h : AskHead) (r : DrawRec)
  | removeRecord (h : AskHead) (table index : Nat)
  | run (h : AskHead)
  | hold (h : AskHead)
  | standby (h : AskHead)
  | restart (h : AskHead)
  | setClock (h : AskHead) (day second : Nat)
  | setFlags (h : AskHead) (codes : Word)
  | readNotices (h : AskHead) (count : Nat)
  | readCounts (h : AskHead) (group clear : Nat)
  | watch (h : AskHead) (station setting : Nat)
  | search (h : AskHead) (start line kind group : Nat)
  | delete (h : AskHead) (station : Nat)
  | clear (h : AskHead)
  | tableCheck (h : AskHead)
  | tableCheckDone (fs : Findings)
  | storeTables (h : AskHead) (skip : Word) (fs : Findings)
  | storeBlockWritten (good : Bool)
  | readHolder (h : AskHead) (n : Nat)
  | bar (h : AskHead) (n sel : Nat)
  | unbar (h : AskHead) (n sel : Nat)
  | clearFault (h : AskHead) (n : Nat)
  | readValve (h : AskHead) (n : Nat)
  | loadRota (h : AskHead) (turns : List Nat)
  | startRota (h : AskHead)
  | stopRota (h : AskHead)
  | setDrawMode (h : AskHead) (mode : Nat)
  | setDistrictMode (h : AskHead) (n mode : Nat)
  | readDistrict (h : AskHead) (n : Nat)
  | setPoolMode (h : AskHead) (mode : Nat)
  | freeBooster (h : AskHead) (n : Nat)
  | readBoosters (h : AskHead)
  | readAccount (h : AskHead) (pick part : Nat)
  | releaseAccount (h : AskHead) (number : Nat)
  | deskPoll (t : DeskTelegram)
  | deskOrderBound (t : DeskTelegram)
  | deskOrderUnbound (t : DeskTelegram)
  | deskGroupTelegram (t : DeskTelegram)
  | parkTimerExpiry (holder : Nat)
  | fieldSendStart (l : FLine)
  | fieldSendEnd (l : FLine)
  | attemptDeadlineExpiry (l : FLine)
  | fieldReplyTaken (l : FLine) (r : Reception)
  | fieldAlertReceived (l : FLine) (r : Reception)
  | fieldStray (l : FLine) (r : Reception)
  | chatterWindowExpiry (l : FLine)
  | cycleExpiry
  | blindGraceExpiry (holder : Nat)
  | rateWindowExpiry
  | travelAllowanceExpiry (valve : Nat)
  | boosterDeadlineExpiry (booster : Nat)
  | turnTimerExpiry
  | deferralDeadlineExpiry
  | settleExpiry (district : Nat)
  | minuteBoundary
  | releaseHoldExpiry (booster : Nat)
  | undecidedDeadlineExpiry (booster : Nat)
  | recoveryExpiry
  | accountCloseDue
  | agingExpiry
  | telegramBegins (l : LineId)
  | replyNotOfRightForm (l : FLine) (r : Reception)
  | yardClockSecond
  deriving DecidableEq, Repr

end Sys2Proof
end

