-- ==== Sys2Proof/Config.lean ====
section
/-! DEFINITION. Capacities and constants the manual fixes, and the free values of what it leaves open.
Every constant cites the rule that gives it. -/

namespace Sys2Proof.Config

/-- 07 R144: the desk receive buffer. -/
def deskRxCap : Nat := 8
/-- 07 R150: the desk transmit queue, for ANSWERs. -/
def deskTxCap : Nat := 24
/-- 07 R150: the desk transmit queue, for every other relay class. -/
def deskTxOtherCap : Nat := 20
/-- 07 R148. -/
def q1Cap : Nat := 8
/-- 07 R148. -/
def q2Cap : Nat := 64
/-- 10 R204. -/
def noticeCap : Nat := 32
/-- 08 R158. -/
def dirCap : Nat := 64
/-- 08 R172. -/
def watchCap : Nat := 4
/-- 06 R132. -/
def ringCap : Nat := 128
/-- 02 R48. -/
def allowanceCap : Nat := 4
/-- 07 R155, 08 R160, 10 R204: counters are held at this value. -/
def counterMax : Nat := 65535
/-- 11 R208. -/
def trackingMax : Nat := 255
/-- 07 R151. -/
def quarantineFails : Nat := 12
/-- 07 R153: the window timer, s. -/
def windowPeriod : Nat := 10
/-- 01 R8: the rate-window timer, s. -/
def rateWindow : Nat := 300
/-- 01 R4: the greatest usable crown height, mm. -/
def heightMax : Nat := 30000
/-- 06 R123: the greatest volume of a part, cubic metres. -/
def volumeMax : Nat := 999999
/-- 06 R122: a meter total wraps at this count. -/
def totalModulus : Nat := 16777216
/-- 10 R202. -/
def daySeconds : Nat := 86400
/-- 10 R202. -/
def dayModulus : Nat := 65536
/-- The bound on the hand-offs acted on in one step (log entry 3); what stands past it is acted on first in the next step. -/
def handoffBound : Nat := 100000

/-- 07 Table 7.7: reply timeout of a class, ms. -/
def replyTimeout : Nat → Nat
  | 0 => 30
  | 1 => 80
  | 2 => 200
  | 3 => 500
  | _ => 1200

/-- FREE VALUE (log entry 14): a word whose value the manual does not state, fresh at each number. -/
opaque freeWord : Nat → BitVec 16
/-- FREE VALUE (log entry 27): what a 48-bit count holds after a sum that passes its range (06 Table 6.1). -/
opaque freeCount : Nat → BitVec 48
/-- FREE VALUE (log entry 27): the interval number after 4 294 967 295 (06 Table 6.4). -/
opaque freeInterval : Nat → BitVec 32

end Sys2Proof.Config
end

