-- ==== Sys2Proof/Machine/Telegrams.lean ====
section
/-! DEFINITION. Telegrams as characters (07 R137-R142): check word, layout, envelope, receive checking. -/

namespace Sys2Proof.Machine

/-- The number of a field line: 1-3 for F1-F3. -/
def lineNum : FLine → Nat
  | .f1 => 1
  | .f2 => 2
  | .f3 => 3

/-- The field line of a number; 0 and numbers above 3 name none. -/
def lineOfNum : Nat → Option FLine
  | 1 => some .f1
  | 2 => some .f2
  | 3 => some .f3
  | _ => none

/-- F1 to F2, F2 to F3, F3 to F1 (09 R181). -/
def nextLine : FLine → FLine
  | .f1 => .f2
  | .f2 => .f3
  | .f3 => .f1

/-- 07 Table 7.3. -/
def kindCode : Kind → Nat
  | .poll => 1
  | .report => 2
  | .order => 3
  | .orderAck => 4
  | .alert => 5
  | .ask => 8
  | .answer => 9
  | .notice => 10

/-- 07 R139: a code not in Table 7.3 is no kind. -/
def kindOfCode : Nat → Option Kind
  | 1 => some .poll
  | 2 => some .report
  | 3 => some .order
  | 4 => some .orderAck
  | 5 => some .alert
  | 8 => some .ask
  | 9 => some .answer
  | 10 => some .notice
  | _ => none

/-- One bit shifted through the register of 07 R141. -/
def crcBit (r : Word) : Word :=
  if r.getLsbD 15 then (r <<< 1) ^^^ 0x1021#16 else r <<< 1

/-- One character, its most significant bit first (07 R141). -/
def crcByte (r : Word) (b : Byte) : Word :=
  let x := r ^^^ ((b.zeroExtend 16) <<< 8)
  crcBit (crcBit (crcBit (crcBit (crcBit (crcBit (crcBit (crcBit x)))))))

/-- The check word of 07 R141: preset FFFFh, no inversion. -/
def crc16 (bs : List Byte) : Word := bs.foldl crcByte 0xFFFF#16

def byteOf (n : Nat) : Byte := BitVec.ofNat 8 n
def wordOf (n : Nat) : Word := BitVec.ofNat 16 n
def hiByte (w : Word) : Byte := byteOf (w.toNat / 256)
def loByte (w : Word) : Byte := byteOf (w.toNat % 256)

/-- Words are sent high byte first (07 R137). -/
def wordBytes : List Word → List Byte
  | [] => []
  | w :: ws => hiByte w :: loByte w :: wordBytes ws

/-- The words of a run of bytes; an odd byte at the end makes no word. -/
def bytesWords : List Byte → List Word
  | h :: l :: bs => wordOf (h.toNat * 256 + l.toNat) :: bytesWords bs
  | _ => []

/-- 0-211 and 255 are station numbers a telegram may carry (00 Table 0.2). -/
def stationOk (n : Nat) : Bool := n ≤ 211 || n == 255

/-- Byte 2 of a telegram (07 Table 7.1). -/
def flagsByte (t : Telegram) : Byte :=
  byteOf (kindCode t.kind * 16 + (if t.replyExpected then 8 else 0) + (if t.rept then 4 else 0)
    + (if t.env.isSome then 2 else 0))

def envBytes : Option (Byte × Byte) → List Byte
  | none => []
  | some (a, b) => [a, b]

/-- The telegram without its check word. -/
def headBytes (t : Telegram) : List Byte :=
  [byteOf t.dest, byteOf t.src, flagsByte t, byteOf t.tag, byteOf t.body.length]
    ++ envBytes t.env ++ wordBytes t.body

/-- The telegram as it is sent, with a new check word (07 R137, R141). -/
def telegramBytes (t : Telegram) : List Byte :=
  let hd := headBytes t
  let c := crc16 hd
  hd ++ [hiByte c, loByte c]

/-- 07 R138: the envelope of a desk telegram, whose class agrees with the kind and whose must-be-zero bits are zero. -/
def deskEnvOk (k : Kind) (e : Byte × Byte) : Bool :=
  e.1.toNat / 32 == 0 && e.2.toNat == 0 && (e.1.getLsbD 3 == (k == .order))

/-- The receive checks of 07 R142 on the characters of one telegram; `desk` is true on the desk line. -/
def parseTelegram (desk : Bool) (bs : List Byte) : Option Telegram :=
  match bs with
  | dst :: src :: kf :: tag :: len :: rest =>
    let hdr := if desk then 2 else 0
    if 32 < len.toNat then none
    else if rest.length ≠ hdr + 2 * len.toNat + 2 then none
    else if crc16 bs ≠ 0#16 then none
    else if !(stationOk dst.toNat && stationOk src.toNat) then none
    else if kf.getLsbD 0 then none
    else if kf.getLsbD 1 != desk then none
    else match kindOfCode (kf.toNat / 16) with
      | none => none
      | some k =>
        let env : Option (Byte × Byte) := if desk then
            match rest with
            | a :: b :: _ => some (a, b)
            | _ => none
          else none
        let envOk := match env with
          | none => true
          | some e => deskEnvOk k e
        if envOk then
          some { dest := dst.toNat, src := src.toNat, kind := k, replyExpected := kf.getLsbD 3,
                 rept := kf.getLsbD 2, tag := tag.toNat, env := env,
                 body := bytesWords ((rest.drop hdr).take (2 * len.toNat)) }
        else none
  | _ => none

/-- A reception is a good telegram, or it is a line error (07 R142). -/
def receive (desk : Bool) (r : Reception) : Option Telegram :=
  if r.charError || r.brokenOff || r.noGap then none else parseTelegram desk r.bytes

/-- The desk's POLL or ORDER with its envelope read (07 R138). -/
def deskTelegramOf (t : Telegram) : DeskTelegram :=
  let e := match t.env with
    | some (a, _) => a
    | none => 0#8
  { order := t.kind == .order, dest := t.dest, replyExpected := t.replyExpected, tag := t.tag,
    forced1 := e.getLsbD 0, forced2 := e.getLsbD 1, forced3 := e.getLsbD 2,
    learnInhibit := e.getLsbD 4, body := t.body }

/-- The forced-line set (07 R138). -/
def forcedLines (t : DeskTelegram) : List FLine :=
  (if t.forced1 then [.f1] else []) ++ (if t.forced2 then [.f2] else []) ++ (if t.forced3 then [.f3] else [])

/-- A desk telegram sent on to a field line: no envelope, source 0, repeat clear (07 R138). -/
def fieldOfDesk (t : DeskTelegram) : Telegram :=
  { dest := t.dest, src := 0, kind := if t.order then .order else .poll, replyExpected := t.replyExpected,
    rept := false, tag := t.tag, env := none, body := t.body }

/-- The relay classes (07 Table 7.2). -/
inductive RelayClass | reply | copy | watch | alert | answer | notice
  deriving DecidableEq, Repr

def relayCode : RelayClass → Nat
  | .reply => 1
  | .copy => 2
  | .watch => 3
  | .alert => 4
  | .answer => 5
  | .notice => 6

/-- A field telegram relayed to the desk: the envelope is inserted and every other byte is left (07 R138). -/
def relayTelegram (c : RelayClass) (l : FLine) (t : Telegram) : Telegram :=
  { t with env := some (byteOf (lineNum l), byteOf (relayCode c)) }

/-- 07 R139: a reply of the awaited kind holds the words Table 7.3 marks as required. -/
def rightForm (k : Kind) (body : List Word) : Bool :=
  match k, body with
  | .report, _ :: _ => true
  | .orderAck, _ :: r :: _ => decide (1 ≤ r.toNat ∧ r.toNat ≤ 5)
  | _, _ => false

end Sys2Proof.Machine
end

