-- ==== Sys2Proof/Machine/Operands.lean ====
section
/-! DEFINITION. The words of table entries and of ASKs (10 R192-R196, Tables 10.1, 10.3): how records and requests
are read from words and written as words. The packing follows log entries 11 and 12. -/

namespace Sys2Proof.Machine

/-- Words as numbers. -/
def nats (ws : List Word) : List Nat := ws.map BitVec.toNat

def bit (b : Bool) : Nat := if b then 1 else 0

/-- Flags packed from bit 0 up (the model's choice, log entry 63). -/
def bits (bs : List Bool) : Nat := bs.zipIdx.foldl (fun acc p => acc + bit p.1 * 2 ^ p.2) 0

/-- A value of more than 16 bits: two words, high word first. -/
def two (n : Nat) : List Nat := [n / 65536 % 65536, n % 65536]

def join2 (hi lo : Nat) : Nat := hi * 65536 + lo

/-- A signed value in one word, two's complement. -/
def signedWord (i : Int) : Nat := (i % 65536).toNat

def wordSigned (n : Nat) : Int := if n < 32768 then (n : Int) else (n : Int) - 65536

/-- A yes-or-no word at place `i` of the entry: 1 and 0; any other word is wrong. Such words, and those that name one of a list, are
found wrong as the entry is read, before a word of any place that is out of its range (the model's choice, log entry 116). -/
def yesNo (i v : Nat) : Except Nat Bool :=
  match v with
  | 0 => .ok false
  | 1 => .ok true
  | _ => .error i

/-- The place at which words of a wrong number depart from a form of `want` words. -/
def wrongLength (want : Nat) (ws : List Nat) : Nat := min want ws.length

def encodeHolder (r : HolderRec) : List Nat :=
  [bit r.inService, (match r.construction with | .column => 0 | .spiral => 1), r.fastRise, r.lifts,
   r.lift1.stroke, r.lift2.stroke, r.lift3.stroke, r.lift4.stroke,
   r.lift1.capacity, r.lift2.capacity, r.lift3.capacity, r.lift4.capacity,
   r.lift1.step, r.lift2.step, r.lift3.step, r.lift4.step]
  ++ [r.margin, r.reserve, r.highWarning, r.topLimit, r.topHyst, r.cupBand, r.blindGrace, r.gauge, r.inlet, r.outlet]

def decodeLifts : List Nat → Option (Lift × Lift × Lift × Lift)
  | [s1, s2, s3, s4, c1, c2, c3, c4, p1, p2, p3, p4] =>
    some (⟨s1, c1, p1⟩, ⟨s2, c2, p2⟩, ⟨s3, c3, p3⟩, ⟨s4, c4, p4⟩)
  | _ => none

/-- A holder record from its words (wrong words: log entry 116). -/
def decodeHolder (ws : List Nat) : Except Nat HolderRec :=
  match ws.take 4, decodeLifts ((ws.drop 4).take 12), ws.drop 16 with
  | [sv, co, fr, l], some (l1, l2, l3, l4), [g, rs, hw, tl, th, cb, bg, ga, inl, out] =>
    match yesNo 0 sv with
    | .error e => .error e
    | .ok inS =>
      match co with
      | 0 => .ok ⟨inS, .column, fr, l, l1, l2, l3, l4, g, rs, hw, tl, th, cb, bg, ga, inl, out⟩
      | 1 => .ok ⟨inS, .spiral, fr, l, l1, l2, l3, l4, g, rs, hw, tl, th, cb, bg, ga, inl, out⟩
      | _ => .error 1
  | _, _, _ => .error (wrongLength 26 ws)

def encodeValve (r : ValveRec) : List Nat := [r.number, r.station, r.travel]

def decodeValve : List Nat → Except Nat ValveRec
  | [n, s, t] => .ok ⟨n, s, t⟩
  | ws => .error (wrongLength 3 ws)

/-- A profile in 13 words: the number of segments, then six places of start minute and setpoint. -/
def encodeProfile (p : List Segment) : List Nat :=
  p.length :: ((p.flatMap (fun (s : Segment) => [s.start, s.setpoint])) ++ List.replicate 12 0).take 12

def segmentsOf : Nat → List Nat → List Segment
  | 0, _ => []
  | n + 1, a :: b :: ws => ⟨a, b⟩ :: segmentsOf n ws
  | _ + 1, _ => []

/-- A profile from its words; a number of segments above six is found wrong as the entry is read (log entry 116). -/
def decodeProfile (i : Nat) : List Nat → Except Nat (List Segment)
  | n :: ws => if n ≤ 6 then .ok (segmentsOf n ws) else .error i
  | [] => .error i

def encodeDistrict (r : DistrictRec) : List Nat :=
  [bit r.inService, (if r.auto then 0 else 1), r.governor, r.recorder, r.meter, signedWord r.headGain, r.floor]
  ++ encodeProfile r.profA ++ encodeProfile r.profB
  ++ [(match r.profFlag with | none => 0 | some f => f + 1), r.deadBand, r.settle, r.rank, bit r.boost]

/-- A district record from its words (wrong words: log entry 116). -/
def decodeDistrict (ws : List Nat) : Except Nat DistrictRec :=
  match ws.take 7, ws.drop 33 with
  | [sv, md, gov, rec, met, hg, fl], [pf, db, st, rk, bo] =>
    match yesNo 0 sv, yesNo 1 md, decodeProfile 7 ((ws.drop 7).take 13), decodeProfile 20 ((ws.drop 20).take 13), yesNo 37 bo with
    | .ok inS, .ok man, .ok pa, .ok pb, .ok boo =>
      .ok ⟨inS, !man, gov, rec, met, wordSigned hg, fl, pa, pb, (if pf = 0 then none else some (pf - 1)), db, st, rk, boo⟩
    | .error e, _, _, _, _ => .error e
    | _, .error e, _, _, _ => .error e
    | _, _, .error e, _, _ => .error e
    | _, _, _, .error e, _ => .error e
    | _, _, _, _, .error e => .error e
  | _, _ => .error (wrongLength 38 ws)

def encodeBooster (r : BoosterRec) : List Nat := [r.station, bit r.inService, r.lift, r.allowance]

/-- A booster record from its words (wrong words: log entry 116). -/
def decodeBooster : List Nat → Except Nat BoosterRec
  | [s, i, l, a] => match yesNo 1 i with
    | .ok b => .ok ⟨s, b, l, a⟩
    | .error e => .error e
  | ws => .error (wrongLength 4 ws)

/-- A yard record in its words: an absent make meter station and an aging period OFF are 0 (the model's choice, log entry 12). -/
def encodeYard (r : YardRec) : List Nat :=
  [r.park, r.turnPeriod, r.margin] ++ two r.mark1 ++ two r.mark2 ++ two r.mark3 ++ two r.hyst
  ++ [r.recovery, r.cut1, r.cut2, r.cut3, r.releaseHold, (match r.makeMeter with | none => 0 | some s => s)]
  ++ two r.tolerance
  ++ [r.interval, (match r.aging with | none => 0 | some p => p), r.cyclePeriod, r.lostThreshold, bit r.autoRun]

/-- A yard record from its words (0 for absent and OFF: log entry 12; wrong words: log entry 116). -/
def decodeYard (ws : List Nat) : Except Nat YardRec :=
  match ws.take 11, ws.drop 11 with
  | [pk, tp, mg, m1h, m1l, m2h, m2l, m3h, m3l, hh, hl], [rc, c1, c2, c3, rh, mm, th, tl, iv, ag, cp, lt, ar] =>
    match yesNo 23 ar with
    | .error e => .error e
    | .ok a => .ok
      { park := pk, turnPeriod := tp, margin := mg, mark1 := join2 m1h m1l, mark2 := join2 m2h m2l, mark3 := join2 m3h m3l,
        hyst := join2 hh hl, recovery := rc, cut1 := c1, cut2 := c2, cut3 := c3, releaseHold := rh,
        makeMeter := if mm = 0 then none else some mm, tolerance := join2 th tl, interval := iv,
        aging := if ag = 0 then none else some ag, cyclePeriod := cp, lostThreshold := lt, autoRun := a }
  | _, _ => .error (wrongLength 24 ws)

def encodeLine (r : LineSet) : List Nat := [r.rate, r.w1, r.w2, r.budget]

def decodeLine : List Nat → Except Nat LineSet
  | [r, a, b, c] => .ok ⟨r, a, b, c⟩
  | ws => .error (wrongLength 4 ws)

def encodePoll (r : PollRec) : List Nat :=
  [r.station, bit r.enabled, r.retries, r.cls, r.mask.toNat, bit r.copy, r.nth]

/-- A poll list position from its words (wrong words: log entry 116). -/
def decodePoll : List Nat → Except Nat PollRec
  | [s, e, rt, c, m, cp, n] => match yesNo 1 e, yesNo 5 cp with
    | .ok eb, .ok cb => .ok ⟨s, eb, rt, c, wordOf m, cb, n⟩
    | .error i, _ => .error i
    | _, .error i => .error i
  | ws => .error (wrongLength 7 ws)

/-- A line by its place in the list F1, F2, F3 (10 R193). -/
def linePlace : FLine → Nat
  | .f1 => 0
  | .f2 => 1
  | .f3 => 2

/-- The line of a directory entry by its place in the list F1, F2, F3, UNLOCATED (08 Table 8.1, 10 R193). -/
def locationWord : Option FLine → Nat
  | some l => linePlace l
  | none => 3

def encodeDir (r : DirWrite) : List Nat := [r.station, locationWord r.line, r.groups.toNat]

/-- A directory write from its words; a line outside its list and a group above 211 are found wrong as the entry is read (log entry
116). -/
def decodeDir : List Nat → Except Nat DirWrite
  | [s, l, g] =>
    let line : Option (Option FLine) := match l with
      | 0 => some (some .f1)
      | 1 => some (some .f2)
      | 2 => some (some .f3)
      | 3 => some none
      | _ => none
    match line with
    | none => .error 1
    | some o => if 4096 ≤ g then .error 2 else .ok ⟨s, o, BitVec.ofNat 12 g⟩
  | ws => .error (wrongLength 3 ws)

def encodeDraw (r : DrawRec) : List Nat :=
  r.list.length :: ((r.list ++ [0, 0, 0, 0]).take 4 ++ [r.count])

/-- A draw record from its words; a number of holders above four is found wrong as the entry is read (log entry 116). -/
def decodeDraw : List Nat → Except Nat DrawRec
  | [n, a, b, c, d, k] => if n ≤ 4 then .ok ⟨[a, b, c, d].take n, k⟩ else .error 0
  | ws => .error (wrongLength 6 ws)

/-- 10 Table 10.1: the request codes. -/
def requestCode : Request → Nat
  | .readEntry _ _ _ => 1
  | .writeEntry _ _ _ _ _ _ => 2
  | .run => 3
  | .hold => 4
  | .standby => 5
  | .restart => 6
  | .setClock _ _ => 7
  | .setFlags _ => 8
  | .readNotices _ => 9
  | .readCounts _ _ => 10
  | .watch _ _ => 11
  | .search _ _ _ _ => 12
  | .delete _ => 13
  | .clear => 14
  | .tableCheck => 15
  | .storeTables _ => 16
  | .readHolder _ => 18
  | .bar _ _ => 19
  | .unbar _ _ => 20
  | .clearFault _ => 21
  | .readValve _ => 22
  | .loadRota _ => 23
  | .startRota => 24
  | .stopRota => 25
  | .setDrawMode _ => 26
  | .setDistrictMode _ _ => 27
  | .readDistrict _ => 28
  | .setPoolMode _ => 29
  | .freeBooster _ => 30
  | .readBoosters => 31
  | .readAccount _ _ => 32
  | .releaseAccount _ => 33

/-- The codes that appear in answers only (10 Table 10.1). -/
def codeRelayedPoll : Nat := 17
def codeRelayedOrder : Nat := 34

/-- The argument words of a request (log entry 11). -/
def requestArgs : Request → List Nat
  | .readEntry t i p => [t, i, p]
  | .writeEntry t i p f e ws => [t, i, p + 256 * bit f + 512 * bit e] ++ nats ws
  | .run | .hold | .standby | .restart | .clear | .tableCheck | .startRota | .stopRota | .readBoosters => []
  | .setClock d s => d :: two s
  | .setFlags c => [c.toNat]
  | .readNotices c => [c]
  | .readCounts g c => [g, c]
  | .watch s m => [s, m]
  | .search a b c d => [a, b, c, d]
  | .delete s => [s]
  | .storeTables k => [k.toNat]
  | .readHolder n | .clearFault n | .readValve n | .setDrawMode n | .readDistrict n | .setPoolMode n | .freeBooster n => [n]
  | .bar n s | .unbar n s | .setDistrictMode n s | .readAccount n s => [n, s]
  | .loadRota ts => ts
  | .releaseAccount n => two n

/-- The body of the ASK that carries a request. -/
def encodeAsk (q : Request) : List Word := (requestCode q :: requestArgs q).map wordOf

/-- The first position at which an ASK body of `len` words departs from one of `want` words. -/
def lengthPosition (want len : Nat) : Nat := min want len + 1

/-- Requests without arguments. -/
def plainRequest : Nat → Option Request
  | 3 => some .run
  | 4 => some .hold
  | 5 => some .standby
  | 6 => some .restart
  | 14 => some .clear
  | 15 => some .tableCheck
  | 24 => some .startRota
  | 25 => some .stopRota
  | 31 => some .readBoosters
  | _ => none

/-- Requests with one argument word. -/
def oneWordRequest (a : Nat) : Nat → Option Request
  | 8 => some (.setFlags (wordOf a))
  | 9 => some (.readNotices a)
  | 13 => some (.delete a)
  | 16 => some (.storeTables (wordOf a))
  | 18 => some (.readHolder a)
  | 21 => some (.clearFault a)
  | 22 => some (.readValve a)
  | 26 => some (.setDrawMode a)
  | 28 => some (.readDistrict a)
  | 29 => some (.setPoolMode a)
  | 30 => some (.freeBooster a)
  | _ => none

/-- Requests with two argument words. -/
def twoWordRequest (a b : Nat) : Nat → Option Request
  | 10 => some (.readCounts a b)
  | 11 => some (.watch a b)
  | 19 => some (.bar a b)
  | 20 => some (.unbar a b)
  | 27 => some (.setDistrictMode a b)
  | 32 => some (.readAccount a b)
  | 33 => some (.releaseAccount (join2 a b))
  | _ => none

/-- Requests with three or four argument words. -/
def fewWordRequest (args : List Nat) : Nat → Option Request
  | 1 => match args with
    | [t, i, p] => some (.readEntry t i p)
    | _ => none
  | 7 => match args with
    | [d, h, l] => some (.setClock d (join2 h l))
    | _ => none
  | 12 => match args with
    | [a, b, c, d] => some (.search a b c d)
    | _ => none
  | _ => none

/-- The number of argument words of a request code; none where the code is unknown or answers only, or the number varies. -/
def argCount : Nat → Option Nat
  | 1 => some 3
  | 3 | 4 | 5 | 6 | 14 | 15 | 24 | 25 | 31 => some 0
  | 7 => some 3
  | 8 | 9 | 13 | 16 | 18 | 21 | 22 | 26 | 28 | 29 | 30 => some 1
  | 10 | 11 | 19 | 20 | 27 | 32 | 33 => some 2
  | 12 => some 4
  | 23 => some 24
  | _ => none

/-- The form checks of 10 R192: the request, or the position of the first word found wrong. -/
def decodeAsk (body : List Word) : Except Nat Request :=
  match nats body with
  | [] => .error 1
  | code :: args =>
    if code = 2 then
      match args with
      | t :: i :: p :: _ =>
        if 31 < args.length then .error 33
        else if 1024 ≤ p then .error 4
        else .ok (.writeEntry t i (p % 256) (p / 256 % 2 == 1) (p / 512 % 2 == 1) (body.drop 4))
      | _ => .error (lengthPosition 4 body.length)
    else match argCount code with
      | none => .error 1
      | some k =>
        if args.length ≠ k then .error (lengthPosition (k + 1) body.length)
        else
          let r : Option Request := match args with
            | [] => plainRequest code
            | [a] => oneWordRequest a code
            | [a, b] => twoWordRequest a b code
            | _ => if code = 23 then some (.loadRota args) else fewWordRequest args code
          match r with
          | some q => .ok q
          | none => .error 1

end Sys2Proof.Machine
end

