-- ==== Sys2Proof/Machine/State.lean ====
section
/-! DEFINITION. The state of the HL-48 as plain data, and its value right after reset.
Absence is `none`; a stopped timer is `none` and a running one holds its expiry in elapsed seconds. -/

namespace Sys2Proof.Machine

/-- Records keyed by number, in rising order of number, each number once. -/
abbrev Tbl (α : Type) := List (Nat × α)

/-! ### Named values -/

inductive RunState | standby | hold | run
  deriving DecidableEq, Repr

/-- 01 Table 1.2: the holder states, in the order of their codes (10 R193). -/
inductive HState | out | fault | blind | grounded | low | working | cup | high | top
  deriving DecidableEq, Repr

/-- 01 R10. -/
inductive Sighted | grounded | low | working | cup | high | top
  deriving DecidableEq, Repr

inductive Motion | rising | falling | still
  deriving DecidableEq, Repr

/-- 02 Table 2.2. -/
inductive VState | unknown | shut | opening | opened | shutting | halted | stuck
  deriving DecidableEq, Repr

/-- 07 Table 7.5, role VALVE. -/
inductive Position | shut | opened | moving | between
  deriving DecidableEq, Repr

/-- 02 Table 2.1. -/
inductive OrderCode | opn | shut | halt | raise | lower | start | stop
  deriving DecidableEq, Repr

/-- 02 Table 2.1. -/
inductive Origin | autoTop | autoGround | autoFault | autoBlind | fill | draw | governor | booster | desk
  deriving DecidableEq, Repr

inductive SlotState | free | queued | sent | travel
  deriving DecidableEq, Repr

/-- The order targets (02 R29). -/
inductive Target | valve (v : Nat) | governor (d : Nat) | booster (b : Nat)
  deriving DecidableEq, Repr

/-- 07 Table 7.3: the results of an ORDER-ACK. -/
inductive AckResult | accepted | done | refusedLocal | refusedFault | refusedUnknown
  deriving DecidableEq, Repr

/-- How an order's exchange ended (02 R35, R36). -/
inductive OrderEnd | ack (r : AckResult) | noReply
  deriving DecidableEq, Repr

/-- What a slot hands the owner of its origin (02 R37, R49, R50). -/
inductive SlotOutcome
  | accepted | done | superseded | stuck | unknown
  | refused | noReply | allowance | stationLost
  deriving DecidableEq, Repr

/-- 04 Table 4.2. -/
inductive DState | out | blind | tracking | headShort
  deriving DecidableEq, Repr

inductive Limit | none | up | down
  deriving DecidableEq, Repr

/-- 05 Table 5.1. -/
inductive BState | free | starting | running | stopping | failed | out
  deriving DecidableEq, Repr

inductive StopCause | release | districtOut | poolManual
  deriving DecidableEq, Repr

inductive FailCause | refused | noReply | allowance | stationLost | tripped | unheld | stopFailed
  deriving DecidableEq, Repr

/-- AUTO or MANUAL: draw mode, pool mode. -/
inductive Mode | auto | manual
  deriving DecidableEq, Repr

/-- 09 Table 9.2. -/
inductive PollOutcome | good | unmasked | noResponse | format | quarantined
  deriving DecidableEq, Repr

/-- 07 Table 7.6, last failure. -/
inductive AttemptFailure | noResponse | format
  deriving DecidableEq, Repr

/-- 10 Table 10.2. -/
inductive Result | done | started | busy | refused | bad | badState | conflict | full | empty | stale | notFound | tooLate | superseded
  deriving DecidableEq, Repr

/-- 10 Table 10.2. -/
inductive Reason
  | top | grounded | fault | out | blind | rotaOwns | drawOwns | poolOwns | districtAuto | unknownStation | groupOrder
  | allowance | localHand | unpolled | missingTable
  deriving DecidableEq, Repr

/-- 10 Table 10.7. -/
inductive NoticeKind
  | holderState | holderStill | fastRise | safetyShut | blindShut | orderFailed | valveLocal | valveMoved | valveStuck
  | valveUnknown | rotaSwitched | makeUnplaced | fillChangeover | fillDone | fillFailed | inletStray | drawDone | noDraw
  | districtState | headShort | governorLimit | boosterGranted | boosterRunning | boosterStopping | boosterFailed
  | reserveLevel | shedChange | meterImplausible | balanceOut | ringHalf | ringFull | lineQuarantined | lineRestored
  | stationMoved | cycleOverrun | stationLost | stationFound | conditionRaised | recordDamaged | correctionsSaturated
  | checkDone | checkAborted | storeDone | storeBlockBad | autoRunRefused
  deriving DecidableEq, Repr

/-- 10 Table 10.6. -/
inductive Subject
  | none | holder (n : Nat) | valve (n : Nat) | district (n : Nat) | booster (n : Nat) | station (n : Nat)
  | line (l : FLine) | meter (n : Nat) | interval (n : Nat) | cycle (n : Nat)
  deriving DecidableEq, Repr

/-- 10 Table 10.6, words 4-5: absent, one value, or two words. -/
inductive Detail | absent | one (v : Int) | pair (a b : Nat)
  deriving DecidableEq, Repr

structure Notice where
  kind : NoticeKind
  subject : Subject
  detail : Detail
  day : Nat
  second : Nat
  unset : Bool
  deriving DecidableEq, Repr

/-- 10 R202. -/
structure Clock where
  day : Nat
  second : Nat
  set : Bool
  deriving DecidableEq, Repr

/-! ### Holders -/

/-- 01 Table 1.2, fault cause: the valve causes hold the valve numbers, rising. -/
structure Causes where
  stuck : List Nat
  unknown : List Nat
  gauge : Bool
  record : Bool
  deriving DecidableEq, Repr

inductive Cause | stuck (v : Nat) | unknown (v : Nat) | gauge | record
  deriving DecidableEq, Repr

structure Height where
  mm : Nat
  day : Nat
  second : Nat
  stale : Bool
  deriving DecidableEq, Repr

/-- What an order keeps of the desk telegram that asked for it: its tag (02 Table 2.1), its learn-inhibit flag (08 R159), and its
destination and body, which are kept as the desk sent them (07 R138, 10 R193). -/
structure DeskRef where
  num : Nat
  inhibit : Bool
  dest : Nat
  body : List Word
  deriving DecidableEq, Repr

/-- A desk order in a park slot (01 R22). -/
structure Parked where
  valve : Nat
  code : OrderCode
  arg : Nat
  tag : DeskRef
  due : Nat
  deriving DecidableEq, Repr

/-- 01 Table 1.2: the safety shut noticed flags. -/
structure Noticed where
  top : Bool
  grounded : Bool
  fault : Bool
  blind : Bool
  deriving DecidableEq, Repr

/-- 01 Table 1.2. -/
structure HolderRt where
  state : HState
  sighted : Option Sighted
  cupIndex : Nat          -- 1-3 in sighted state CUP, else 0
  height : Option Height
  lifts : Nat
  pressure : Nat
  stock : Nat
  reserveStock : Nat
  rate : Int
  stale : Bool            -- the mark of pressure, stock, rate and sighted state (R5, R15)
  rateBase : Option (Nat × Nat)   -- height, elapsed second
  motion : Motion
  windowMark : Option Nat
  stillCount : Nat
  sampled : Bool          -- a usable sample arrived since the last window expiry (R8)
  longStill : Bool
  fast : Bool
  fillBar : Bool
  drawBar : Bool
  latch : Bool
  causes : Causes
  graceDue : Option Nat
  blindShutDue : Bool
  noticed : Noticed
  park : Option Parked
  deriving DecidableEq, Repr

structure Holder where
  tab : HolderRec
  damaged : Bool
  rt : HolderRt
  deriving DecidableEq, Repr

/-! ### Orders and valves -/

/-- A SHUT or STOP waiting behind the order in flight (02 Table 2.1). -/
structure FollowUp where
  origin : Origin
  tag : Option DeskRef
  deriving DecidableEq, Repr

/-- 02 Table 2.1; `reversal` marks a SHUT sent as a reversal (R35, R40). -/
structure Slot where
  state : SlotState
  code : OrderCode
  arg : Nat
  origin : Origin
  tag : Option DeskRef
  issued : Nat
  deadline : Option Nat
  checkPending : Bool
  followUp : Option FollowUp
  reversal : Bool
  deriving DecidableEq, Repr

structure Valve where
  tab : ValveRec
  damaged : Bool
  state : VState
  localHand : Bool
  slot : Slot
  deriving DecidableEq, Repr

/-! ### Filling and drawing -/

/-- A rota turn of a copy: 0 is none (03 R54). -/
structure Turn where
  holder : Nat
  damaged : Bool
  deriving DecidableEq, Repr

inductive FillPhase | openingNew | shuttingOld
  deriving DecidableEq, Repr

/-- 03 Table 3.2; `waived` marks the cup condition as waived (R64). -/
structure FillChange where
  old : Option Nat
  new : Nat
  phase : FillPhase
  openClaimed : Bool
  deferral : Option Nat
  waived : Bool
  deriving DecidableEq, Repr

structure Fill where
  work : List Turn
  pend : List Turn
  pendFlag : Bool
  running : Bool
  turn : Nat
  turnDue : Option Nat
  filling : Option Nat
  chg : Option FillChange
  selDue : Bool
  unplaced : Bool
  stray : List Nat        -- the holders whose stray noticed flag is set, rising
  deriving DecidableEq, Repr

inductive EntryStatus | waiting | opened | failed
  deriving DecidableEq, Repr

/-- 03 R74, R75; `claimed` holds the leaving holders whose outlets are claimed SHUT, `owed` the holders whose claim of SHUT is
still to be made: a failed entry's, which may wait for RUN (R76), or a leaving one's. -/
structure DrawChange where
  entering : List (Nat × EntryStatus)
  leaving : List Nat
  closing : Bool
  claimed : List Nat
  owed : List Nat
  deriving DecidableEq, Repr

structure Draw where
  tab : DrawRec
  recDamaged : Bool
  mode : Mode
  modeDamaged : Bool
  set : List Nat          -- rising
  chg : Option DrawChange
  evalDue : Bool
  main : Nat
  mainStale : Bool
  noDraw : Bool           -- NO DRAW noticed for the present spell (R78)
  deriving DecidableEq, Repr

/-! ### Districts and boosters -/

structure Pressure where
  value : Nat
  day : Nat
  second : Nat
  stale : Bool
  deriving DecidableEq, Repr

/-- The active segment: profile B or A, and its index 1-6 (04 Table 4.2). -/
structure SegmentRef where
  profB : Bool
  index : Nat
  deriving DecidableEq, Repr

/-- 04 Table 4.2; `handed` is the target and head without lift last handed to the booster unit (R90). -/
structure DistrictRt where
  state : DState
  seg : Option SegmentRef
  target : Option Nat
  last : Option Pressure
  recorderFault : Bool
  position : Option Nat
  limit : Limit
  limitNoticed : Bool
  governorFault : Bool
  head : Int
  headStale : Bool
  headShort : Bool
  settleDue : Option Nat
  shed : Nat
  held : Nat
  boosted : Bool
  lift : Nat
  minP : Option Nat
  maxP : Option Nat
  shedMin : Nat
  boostMin : Nat
  handed : Option (Nat × Int)
  deriving DecidableEq, Repr

structure District where
  tab : DistrictRec
  damaged : Bool
  rt : DistrictRt
  slot : Slot
  deriving DecidableEq, Repr

/-- 05 Table 5.1; `undecided` holds the undecided deadline (R118). -/
structure Booster where
  tab : BoosterRec
  damaged : Bool
  state : BState
  district : Option Nat
  releaseDue : Option Nat
  stopDue : Option StopCause
  cause : Option FailCause
  sample : Option (Bool × Nat)
  undecided : Option Nat
  slot : Slot
  deriving DecidableEq, Repr

structure Pool where
  mode : Mode
  modeDamaged : Bool
  queue : List Nat
  usable : Nat
  judged : Bool
  level : Nat
  recoveryDue : Option Nat
  deriving DecidableEq, Repr

/-! ### Accounts -/

/-- 06 Table 6.1. -/
structure Meter where
  station : Option Nat
  weight : Nat
  limit : Nat
  damaged : Bool
  last : Option Nat
  residue : Nat
  lost : Bool
  carry : Bool
  accepted : Nat
  rejected : Nat
  deriving DecidableEq, Repr

/-- The make part or a district entry of the open account (06 Table 6.4). -/
structure Part where
  counts : Nat
  volume : Nat
  meterLost : Bool
  carried : Bool
  volumeHeld : Bool
  recorderLost : Bool
  deriving DecidableEq, Repr

structure Account where
  number : Nat
  start : Option (Nat × Nat)   -- day, minute
  startSecond : Nat
  length : Nat
  closeDue : Nat
  merged : Nat
  stockOpen : Nat
  openClean : Bool
  clockUnset : Bool
  clockChanged : Bool
  holderBlind : Bool
  balanceOut : Bool
  make : Part
  parts : Tbl Part
  deriving DecidableEq, Repr

/-- A district entry of an account record (06 Table 6.7). -/
structure RecordEntry where
  district : Nat
  part : Part
  minP : Option Nat
  maxP : Option Nat
  shedMin : Nat
  boostMin : Nat
  deriving DecidableEq, Repr

structure AccountRecord where
  number : Nat
  start : Option (Nat × Nat)
  length : Nat
  merged : Nat
  clockUnset : Bool
  clockChanged : Bool
  holderBlind : Bool
  balanceOut : Bool
  make : Part
  stockOpen : Nat
  stockClose : Option Nat
  discrepancy : Option Int
  entries : List RecordEntry
  deriving DecidableEq, Repr

structure Accounts where
  openAcct : Account
  ring : List AccountRecord
  mergeRun : Bool
  deriving DecidableEq, Repr

/-! ### Lines -/

/-- 07 Table 7.13. -/
structure Counters where
  telegramsIn : Nat
  telegramsOut : Nat
  lineErrors : Nat
  strays : Nat
  chatter : Nat
  deskDrops : Nat
  overrun : Nat
  quarantine : Nat
  deriving DecidableEq, Repr

/-- A POLL of the part in Q2 (07 R148): `check` marks a check poll, `search` a search poll; `copy` is the copy setting it was
placed with (09 R177), `asked` says that the order which asked for the check awaits its outcome (02 R41), and `entry` is the
poll list position it was placed for, 0 for none. -/
structure PartPoll where
  station : Nat
  cls : Nat
  retries : Nat
  check : Bool
  search : Bool
  copy : Bool
  asked : Bool
  entry : Nat
  deriving DecidableEq, Repr

/-- A desk telegram in Q1, with the flood record it is a copy of (08 R166). -/
structure DeskCopy where
  tel : DeskTelegram
  flood : Option Nat
  deriving DecidableEq, Repr

/-- An ORDER in Q0 (07 R148): a slot's, or a desk order to an unbound station. -/
inductive Q0Entry | slot (t : Target) (station : Nat) | desk (t : DeskTelegram)
  deriving DecidableEq, Repr

/-- A telegram selected for sending. -/
inductive Outgoing | order (t : Target) (station : Nat) | unbound (t : DeskTelegram) | copy (c : DeskCopy) | poll (p : PartPoll)
  deriving DecidableEq, Repr

/-- 07 Table 7.6; `what` says what was sent and so the origin; `check` says a check takes this outcome (09 R187). -/
structure Exchange where
  station : Nat
  tag : Nat
  expected : Kind
  what : Outgoing
  sent : Telegram
  cls : Nat
  retries : Nat
  left : Nat
  deadline : Option Nat     -- ms after the end of transmission
  repeatDue : Bool
  last : AttemptFailure
  check : Bool
  deriving DecidableEq, Repr

inductive LineMode | idle | sending | awaiting
  deriving DecidableEq, Repr

inductive TurnOwner | q1 | q2
  deriving DecidableEq, Repr

structure LineUnit where
  set : LineSet
  damaged : Bool
  rate : Nat
  mode : LineMode
  receiving : Bool
  selected : Option Outgoing
  sending : Option (Outgoing × Telegram)
  exch : Option Exchange
  q0 : List Q0Entry
  q1 : List DeskCopy
  q2 : List PartPoll
  tag : Nat
  owner : TurnOwner
  turns : Nat
  quarantined : Bool
  fails : Nat
  first : Option Nat
  second : Bool
  alerts : Nat
  budget : Nat
  windowDue : Nat
  counters : Counters
  deriving DecidableEq, Repr

structure Lines where
  f1 : LineUnit
  f2 : LineUnit
  f3 : LineUnit
  deriving DecidableEq, Repr

/-! ### Directory, relay and polling -/

/-- 08 Table 8.1, binding; the role follows from it. -/
inductive Binding
  | gauge (h : Nat) | valve (v : Nat) | governor (d : Nat) | recorder (d : Nat) | meter (d : Nat) | makeMeter | booster (b : Nat)
  deriving DecidableEq, Repr

inductive EntryKind | learned | static | bound
  deriving DecidableEq, Repr

/-- 08 Table 8.1, under the station's number. -/
structure DirEntry where
  line : Option FLine
  kind : EntryKind
  binding : Option Binding
  staticMark : Bool
  heard : Bool
  seq : Nat
  lost : Bool
  failures : Nat
  groups : BitVec 12
  watch : Bool
  damaged : Bool
  deriving DecidableEq, Repr

/-- 08 R166, R167: the lines whose copies are still queued or open, whether a copy has replied, and the outcome held. -/
structure Flood where
  id : Nat
  station : Nat
  tag : Nat
  copies : List FLine
  replied : Bool
  deriving DecidableEq, Repr

structure Relay where
  creation : Nat
  dirFull : Nat
  floods : List Flood
  nextFlood : Nat
  agingDue : Option Nat
  allowance : Nat
  deriving DecidableEq, Repr

/-- A poll list position holding an entry (09 Tables 9.1, 9.2). -/
structure PollPos where
  tab : PollRec
  damaged : Bool
  search : FLine
  reported : Word
  lastOutcome : Option (PollOutcome × Nat)
  lastGood : Option (Nat × Nat)
  lastCycle : Option Nat
  deriving DecidableEq, Repr

structure Cycle where
  number : Nat
  due : Nat
  period : Nat
  expiries : Nat          -- since start-up, for the auto-run (11 R213)
  deriving DecidableEq, Repr

/-! ### The desk -/

/-- The order shown of a slot that is not FREE (02 R51). -/
structure ShownOrder where
  code : OrderCode
  origin : Origin
  tag : Option Nat
  age : Nat
  deadlineLeft : Option Nat
  checkPending : Bool
  followUp : Option (Origin × Option Nat)
  deriving DecidableEq, Repr

/-- A slot as it is shown (02 R51): a FREE slot shows no order. -/
structure ShownSlot where
  state : SlotState
  order : Option ShownOrder
  deriving DecidableEq, Repr

/-- A booster as READ BOOSTERS shows it (05 R116). -/
structure ShownBooster where
  number : Nat
  tab : BoosterRec
  state : BState
  district : Option Nat
  releaseLeft : Option Nat
  stopDue : Option StopCause
  cause : Option FailCause
  sample : Option (Bool × Nat)
  undecidedLeft : Option Nat
  slot : ShownSlot
  deriving DecidableEq, Repr

/-- What the data of an ANSWER give (10 R192): words, or the fields of a reading, which the ANSWER packs (log entry 13). -/
inductive AnswerData
  | words (ws : List Nat)
  | causes (c : Causes)
  | holder (h : HolderRt) (graceLeft : Option Nat) (parkLeft : Option Nat)
  | valve (station travel allowance : Nat) (state : VState) (localHand : Bool) (slot : ShownSlot)
  | district (d : DistrictRt) (seg : Option Segment) (settleLeft : Option Nat) (headNoLift : Int) (margin : Nat) (slot : ShownSlot)
  | boosters (p : Pool) (bs : List ShownBooster) (recoveryLeft : Option Nat) (shed : List (Nat × Nat))
  | entries (es : List (Nat × DirEntry)) (following : Option Nat) (learned static bound : Nat)
  deriving DecidableEq, Repr

/-- A telegram in the desk transmit queue. -/
inductive DeskOut
  | answer (tag : Nat) (result : Result) (request : Nat) (flags : Word) (reason : Option Reason) (data : AnswerData)
  | notice (tag : Nat) (n : Notice)
  | relayed (c : RelayClass) (l : FLine) (t : Telegram)
  deriving DecidableEq, Repr

structure LastAnswer where
  tag : Nat
  request : Nat
  result : Result
  reason : Option Reason
  data : AnswerData
  deriving DecidableEq, Repr

/-- 10 R196. -/
structure Staged where
  table : Nat
  index : Nat
  words : List Word
  next : Nat
  deriving DecidableEq, Repr

/-- The desk line and desk request units; `out` is the telegram last sent on the desk line. -/
structure Desk where
  rx : List Telegram
  tx : List DeskOut
  out : Option Telegram
  overrun : Bool
  receiving : Bool
  counters : Counters
  lastAnswer : Option LastAnswer
  staged : Option Staged
  notices : List Notice
  lostNotices : Nat
  noticeTag : Nat
  deriving DecidableEq, Repr

/-! ### Table memory and store -/

/-- A stored record with its damage mark. -/
abbrev Kept (α : Type) := α × Bool

/-- The content of a LOAD block (11 Table 11.2). -/
inductive BlockContent
  | holders (t : Tbl (Kept HolderRec))
  | valves (t : Tbl (Kept ValveRec))
  | districts (t : Tbl (Kept DistrictRec))
  | boosters (t : Tbl (Kept BoosterRec)) (mode : Kept Mode)
  | meters (t : Tbl (Kept (Nat × Nat)))
  | yard (r : Kept YardRec) (present : Bool)
  | lines (a b c : Kept LineSet)
  | polls (t : Tbl (Kept PollRec)) (holes : List Nat)
  | directory (static : Tbl (Kept (Option FLine × BitVec 12))) (groups : Tbl (Kept (BitVec 12)))
  | rotaWork (ts : List Turn)
  | rotaPend (ts : List Turn)
  | draw (r : Kept DrawRec) (mode : Kept Mode)
  deriving DecidableEq, Repr

/-- A block of the store image: its code, its content (none is load code SKIP) and whether its check word is good. -/
structure Block where
  code : Nat
  content : Option BlockContent
  good : Bool
  deriving DecidableEq, Repr

/-- A store write under way (11 R211): the blocks still to write, those written good, and a second attempt. -/
structure StoreWrite where
  blocks : List Block
  written : Nat
  second : Bool
  deriving DecidableEq, Repr

/-- A bit error that a read meets: the record, the error, and whether it is the sweep's read that meets it (11 R208-R210). -/
structure Met where
  record : RecordRef
  flip : Flip
  bySweep : Bool
  deriving DecidableEq, Repr

/-- `swept` counts the records that the sweep under way has corrected and newly marked damaged (11 R210); `met` holds the bit
errors that the reads of the next step meet, by the units at their work or by the sweep, an input (log entry 10). -/
structure TableMem where
  tracking : Nat
  sweep : Bool
  swept : Nat × Nat
  met : List Met
  writing : Option StoreWrite
  store : List Block
  autoRun : Bool
  deriving DecidableEq, Repr

/-! ### Hand-offs -/

/-- The result of a check poll passed to the order unit (09 R187): a usable position, or none. -/
abbrev CheckResult := Option Position

/-- What one unit hands to another inside a step (log entry 3). -/
inductive Handoff
  -- order unit
  | claim (t : Target) (code : OrderCode) (arg : Nat) (origin : Origin) (tag : Option DeskRef)
  | orderEnded (t : Target) (e : OrderEnd)
  | outcome (t : Target) (code : OrderCode) (origin : Origin) (tag : Option DeskRef) (o : SlotOutcome)
  | valveTold (v : Nat) (byReport : Bool) (changed : Bool)
  | judge (v : Nat) (r : CheckResult)
  | topGuard (h : Nat)
  | regate (h : Nat)
  -- holder unit
  | addCause (h : Nat) (c : Cause)
  | holderNotice (h : Nat) (st : HState)
  | holderTold (h : Nat) (entered : Bool)
  | safetyExamine
  | safetyExamineOne (h : Nat)
  -- fill and draw unit
  | fillTold (h : Nat)
  | fillBar (h : Nat) (set : Bool)
  | drawBar (h : Nat) (set : Bool)
  | fillValve (v : Nat)
  | fillGrace (h : Nat)
  | fillSelect
  | fillTest
  | fillCycle
  | fillStrays
  | fillStray (h : Nat)
  | fillRun
  | drawTold
  | drawOutlet (v : Nat)
  | drawCall
  | drawStep
  | drawOpen (h : Nat)
  | drawShut (h : Nat)
  | drawFinish
  | drawCycle
  | drawRun
  | mainPressure
  | noDrawCheck
  -- pressure unit
  | target (d : Nat)
  | headAll
  | headEval (d : Nat)
  | districtDerive (d : Nat)
  | districtAfresh (d : Nat)
  | loop (d : Nat) (p : Nat)
  -- booster and reserve unit
  | evaluated (d : Nat)
  | boostCheck (d : Nat)
  | headShort (d : Nat)
  | headClear (d : Nat)
  | districtOut (d : Nat)
  | sweep
  | grants
  | boosterStop (b : Nat) (c : StopCause)
  | stopsDue
  | boosterDue (b : Nat)
  | usable
  | levelEval
  | shedAll
  | shed (d : Nat)
  -- lines, relay, polling
  | stationLost (station : Nat)
  | owner (t : Telegram)
  | relayOut (c : RelayClass) (l : FLine) (t : Telegram)
  | lineIdle (l : FLine)
  -- desk, table memory
  | reply (tag : Nat) (request : Nat) (result : Result) (reason : Option Reason) (data : AnswerData)
  | replyRunState (tag : Nat) (request : Nat) (result : Result) (reason : Option Reason) (data : List Nat)
  | replyFlags (tag : Nat)
  | blockBad (code : Nat)
  | damaged (r : RecordRef)
  deriving DecidableEq, Repr

/-! ### The state -/

structure State where
  pending : List Instr
  handoffs : List Handoff
  free : Nat
  elapsed : Nat
  clock : Clock
  minuteDue : Bool
  runState : RunState
  flags : BitVec 8
  yard : YardRec
  yardPresent : Bool
  yardDamaged : Bool
  holders : Tbl Holder
  rateDue : Nat
  valves : Tbl Valve
  fill : Fill
  draw : Draw
  districts : Tbl District
  boosters : Tbl Booster
  pool : Pool
  meters : Tbl Meter
  acct : Accounts
  lines : Lines
  dir : Tbl DirEntry
  relay : Relay
  polls : Tbl PollPos
  pollHoles : List Nat    -- the EMPTY positions marked damaged, rising
  cycle : Cycle
  desk : Desk
  mem : TableMem
  deriving DecidableEq, Repr

/-- The manual names no event that stops the part (INVENTORY.md, Faults): there is no fault. -/
inductive Fault
  deriving DecidableEq, Repr

inductive Refusal
  /-- Raised by exec's arm for a command that has no meaning yet; safe. No arm of this model raises it. -/
  | notModelled (mnemonic : String)
  deriving DecidableEq, Repr

/-! ### Values at power-on -/

/-- 10 Table 10.4, the defaults. -/
def YardRec.default : YardRec :=
  { park := 60, turnPeriod := 15, margin := 20, mark1 := 0, mark2 := 0, mark3 := 0, hyst := 0, recovery := 20,
    cut1 := 8, cut2 := 8, cut3 := 8, releaseHold := 10, makeMeter := none, tolerance := 500, interval := 15,
    aging := some 5, cyclePeriod := 10, lostThreshold := 3, autoRun := false }

/-- 07 Table 7.12, the defaults. -/
def LineSet.default : LineSet := { rate := 9600, w1 := 2, w2 := 1, budget := 16 }

def Counters.zero : Counters :=
  { telegramsIn := 0, telegramsOut := 0, lineErrors := 0, strays := 0, chatter := 0, deskDrops := 0, overrun := 0, quarantine := 0 }

/-- 07 R156: a field line at power-on with the default line table entry. -/
def LineUnit.initial : LineUnit :=
  { set := LineSet.default, damaged := false, rate := 9600, mode := .idle, receiving := false, selected := none,
    sending := none, exch := none, q0 := [], q1 := [], q2 := [], tag := 0, owner := .q1, turns := 0, quarantined := false,
    fails := 0, first := none, second := false, alerts := 0, budget := 16, windowDue := 10, counters := Counters.zero }

/-- 02 R29, R52: a FREE slot; its order fields hold no order. -/
def Slot.free : Slot :=
  { state := .free, code := .shut, arg := 0, origin := .desk, tag := none, issued := 0, deadline := none,
    checkPending := false, followUp := none, reversal := false }

/-- 03 R79. -/
def Fill.initial : Fill :=
  { work := List.replicate 24 ⟨0, false⟩, pend := List.replicate 24 ⟨0, false⟩, pendFlag := false, running := false, turn := 0,
    turnDue := none, filling := none, chg := none, selDue := false, unplaced := false, stray := [] }

/-- 03 R79. -/
def Draw.initial : Draw :=
  { tab := ⟨[], 1⟩, recDamaged := false, mode := .manual, modeDamaged := false, set := [], chg := none, evalDue := false,
    main := 0, mainStale := false, noDraw := false }

/-- 05 R117. -/
def Pool.initial : Pool :=
  { mode := .manual, modeDamaged := false, queue := [], usable := 0, judged := false, level := 0, recoveryDue := none }

def Part.zero : Part :=
  { counts := 0, volume := 0, meterLost := false, carried := false, volumeHeld := false, recorderLost := false }

/-- 06 R119, R135: a meter entry at power-on with the default weight and limit. -/
def Meter.initial : Meter :=
  { station := none, weight := 100, limit := 65535, damaged := false, last := none, residue := 0, lost := false, carry := false,
    accepted := 0, rejected := 0 }

/-- 06 R135, R130: account 0 of a yard with no holder and no district, the interval length being the default. -/
def Account.initial : Account :=
  { number := 0, start := none, startSecond := 0, length := 15, closeDue := 900, merged := 0, stockOpen := 0, openClean := true,
    clockUnset := true, clockChanged := false, holderBlind := false, balanceOut := false, make := Part.zero, parts := [] }

/-- 10 R207, R194, R204; 07 R156. -/
def Desk.initial : Desk :=
  { rx := [], tx := [], out := none, overrun := false, receiving := false, counters := Counters.zero, lastAnswer := none, staged := none,
    notices := [], lostNotices := 0, noticeTag := 0 }

/-- The block codes of 11 Table 11.2, in its order. -/
def blockCodes : List Nat := [1, 2, 3, 4, 5, 6, 7, 9, 11, 12, 13, 14]

/-- A store image whose blocks all hold load code SKIP (log entry 8). -/
def emptyStore : List Block := blockCodes.map fun c => ⟨c, none, true⟩

/-- Right after reset: start-up complete (11 R212) from a store whose blocks are all SKIP, so that every table is empty or at its defaults. -/
def State.reset : State :=
  { pending := [], handoffs := [], free := 0, elapsed := 0, clock := ⟨0, 0, false⟩, minuteDue := false, runState := .standby,
    flags := 0#8, yard := YardRec.default, yardPresent := false, yardDamaged := false, holders := [], rateDue := 300,
    valves := [], fill := Fill.initial, draw := Draw.initial, districts := [], boosters := [], pool := Pool.initial,
    meters := [], acct := ⟨Account.initial, [], false⟩, lines := ⟨LineUnit.initial, LineUnit.initial, LineUnit.initial⟩,
    dir := [], relay := { creation := 0, dirFull := 0, floods := [], nextFlood := 0, agingDue := some 300, allowance := 0 },
    polls := [], pollHoles := [], cycle := ⟨0, 10, 10, 0⟩, desk := Desk.initial,
    mem := { tracking := 0, sweep := false, swept := (0, 0), met := [], writing := none, store := emptyStore, autoRun := false } }

end Sys2Proof.Machine
end

