-- ==== Sys2Proof/Machine/Codes.lean ====
section
/-! DEFINITION. The codes of named values (10 R193, Tables 7.3, 10.2, 10.6, 10.7): the position of a value, counting
from 0, in the list where the manual first gives it, unless a table gives other codes. -/

namespace Sys2Proof.Machine

/-- The manual has no one first list of the run states: the order of 10 Table 10.5 is the model's choice (log entry 109). -/
def runStateCode : RunState → Nat
  | .standby => 0
  | .run => 1
  | .hold => 2

def hStateCode : HState → Nat
  | .out => 0
  | .fault => 1
  | .blind => 2
  | .grounded => 3
  | .low => 4
  | .working => 5
  | .cup => 6
  | .high => 7
  | .top => 8

/-- 02 Table 2.2. -/
def vStateCode : VState → Nat
  | .unknown => 0
  | .shut => 1
  | .opening => 2
  | .opened => 3
  | .shutting => 4
  | .halted => 5
  | .stuck => 6

/-- 07 Table 7.3. -/
def orderCodeNum : OrderCode → Nat
  | .opn => 1
  | .shut => 2
  | .halt => 3
  | .raise => 4
  | .lower => 5
  | .start => 6
  | .stop => 7

/-- 07 Table 7.3: codes 8-15 are station-specific, others no order. -/
def orderOfNum : Nat → Option OrderCode
  | 1 => some .opn
  | 2 => some .shut
  | 3 => some .halt
  | 4 => some .raise
  | 5 => some .lower
  | 6 => some .start
  | 7 => some .stop
  | _ => none

/-- 02 Table 2.1. -/
def originCode : Origin → Nat
  | .autoTop => 0
  | .autoGround => 1
  | .autoFault => 2
  | .autoBlind => 3
  | .fill => 4
  | .draw => 5
  | .governor => 6
  | .booster => 7
  | .desk => 8

/-- 07 Table 7.3, ORDER-ACK results. -/
def ackOfNum : Nat → Option AckResult
  | 1 => some .accepted
  | 2 => some .done
  | 3 => some .refusedLocal
  | 4 => some .refusedFault
  | 5 => some .refusedUnknown
  | _ => none

/-- 04 Table 4.2. -/
def dStateCode : DState → Nat
  | .out => 0
  | .blind => 1
  | .tracking => 2
  | .headShort => 3

def limitCode : Limit → Nat
  | .none => 0
  | .up => 1
  | .down => 2

/-- 05 Table 5.1, stop due: absent takes position 0. -/
def stopCauseCode : StopCause → Nat
  | .release => 1
  | .districtOut => 2
  | .poolManual => 3

/-- 05 Table 5.1, failure cause: absent takes position 0. -/
def failCauseCode : FailCause → Nat
  | .refused => 1
  | .noReply => 2
  | .allowance => 3
  | .stationLost => 4
  | .tripped => 5
  | .unheld => 6
  | .stopFailed => 7

/-- 09 Table 9.2, last outcome: absent takes position 0. -/
def pollOutcomeCode : PollOutcome → Nat
  | .good => 1
  | .unmasked => 2
  | .noResponse => 3
  | .format => 4
  | .quarantined => 5

/-- 10 Table 10.2. -/
def resultCode : Result → Nat
  | .done => 1
  | .started => 2
  | .busy => 3
  | .refused => 4
  | .bad => 5
  | .badState => 6
  | .conflict => 7
  | .full => 8
  | .empty => 9
  | .stale => 10
  | .notFound => 11
  | .tooLate => 12
  | .superseded => 13

/-- 10 Table 10.2. -/
def reasonCode : Reason → Nat
  | .top => 1
  | .grounded => 2
  | .fault => 3
  | .out => 4
  | .blind => 5
  | .rotaOwns => 6
  | .drawOwns => 7
  | .poolOwns => 8
  | .districtAuto => 9
  | .unknownStation => 10
  | .groupOrder => 11
  | .allowance => 12
  | .localHand => 13
  | .unpolled => 14
  | .missingTable => 15

/-- 10 Table 10.7. -/
def noticeCode : NoticeKind → Nat
  | .holderState => 1
  | .holderStill => 2
  | .fastRise => 3
  | .safetyShut => 4
  | .blindShut => 5
  | .orderFailed => 6
  | .valveLocal => 7
  | .valveMoved => 8
  | .valveStuck => 9
  | .valveUnknown => 10
  | .rotaSwitched => 11
  | .makeUnplaced => 12
  | .fillChangeover => 13
  | .fillDone => 14
  | .fillFailed => 15
  | .inletStray => 16
  | .drawDone => 17
  | .noDraw => 18
  | .districtState => 19
  | .headShort => 20
  | .governorLimit => 21
  | .boosterGranted => 22
  | .boosterRunning => 23
  | .boosterStopping => 24
  | .boosterFailed => 25
  | .reserveLevel => 26
  | .shedChange => 27
  | .meterImplausible => 28
  | .balanceOut => 29
  | .ringHalf => 30
  | .ringFull => 31
  | .lineQuarantined => 32
  | .lineRestored => 33
  | .stationMoved => 34
  | .cycleOverrun => 35
  | .stationLost => 36
  | .stationFound => 37
  | .conditionRaised => 38
  | .recordDamaged => 39
  | .correctionsSaturated => 40
  | .checkDone => 41
  | .checkAborted => 42
  | .storeDone => 43
  | .storeBlockBad => 44
  | .autoRunRefused => 45

/-- 10 Table 10.6: subject kind and number. -/
def subjectCode : Subject → Nat × Nat
  | .none => (0, 0)
  | .holder n => (1, n)
  | .valve n => (2, n)
  | .district n => (3, n)
  | .booster n => (4, n)
  | .station n => (5, n)
  | .line l => (6, lineNum l)
  | .meter n => (7, n)
  | .interval n => (8, n)
  | .cycle n => (9, n)

/-- 10 Table 10.6, words 4 and 5. -/
def detailWords : Detail → List Nat
  | .absent => [0, 0]
  | .one v => let u := (v % 4294967296).toNat
              [u / 65536, u % 65536]
  | .pair a b => [a, b]

/-- The seven words of a notice (10 Table 10.6). -/
def noticeWords (n : Notice) : List Nat :=
  let sub := subjectCode n.subject
  let present := match n.detail with
    | .absent => 0
    | _ => 1
  [noticeCode n.kind * 256 + sub.1 * 16 + present * 4 + bit n.unset * 2 + n.second / 65536]
    ++ two sub.2 ++ detailWords n.detail ++ [n.day, n.second % 65536]

/-- A station role (08 Table 8.1) in the order GAUGE, VALVE, GOVERNOR, RECORDER, METER, BOOSTER, OTHER. -/
def roleCode : Option Binding → Nat
  | some (.gauge _) => 0
  | some (.valve _) => 1
  | some (.governor _) => 2
  | some (.recorder _) => 3
  | some (.meter _) => 4
  | some .makeMeter => 4
  | some (.booster _) => 5
  | none => 6

def bindingNumber : Option Binding → Nat
  | some (.gauge n) | some (.valve n) | some (.governor n) | some (.recorder n) | some (.meter n) | some (.booster n) => n
  | some .makeMeter | none => 0

def entryKindCode : EntryKind → Nat
  | .learned => 0
  | .static => 1
  | .bound => 2

/-- The table code and index a guarded record is named by (11 R209; log entry 33 for the two modes). -/
def recordName : RecordRef → Nat × Nat
  | .holder n => (1, n)
  | .valve n => (2, n)
  | .district n => (3, n)
  | .booster n => (4, n)
  | .meter n => (5, n)
  | .yard => (6, 0)
  | .line l => (7, lineNum l)
  | .poll n => (9, n)
  | .directory s => (11, s)
  | .turnWork i => (12, i)
  | .turnPend i => (13, i)
  | .draw => (14, 0)
  | .drawMode => (14, 1)
  | .poolMode => (4, 0)

end Sys2Proof.Machine
end

