-- ==== Sys2Proof/Machine/Flags.lean ====
section
/-! DEFINITION. The condition word and the role samples (07 R140, Tables 7.4, 7.5), the flags word of an ANSWER (07 R150),
the counters' limits (07 R155) and the yard flags (10 R203). -/

namespace Sys2Proof.Machine

/-- The first word of a REPORT, ALERT or ORDER-ACK (07 R140); an empty body reads as condition word 0 (the model's choice, log
entry 65). -/
def condWord : List Word → Word
  | c :: _ => c
  | [] => 0#16

def condFault (c : Word) : Bool := c.getLsbD 0
def condLocal (c : Word) : Bool := c.getLsbD 1
def condRestarted (c : Word) : Bool := c.getLsbD 2
def condLimit (c : Word) : Bool := c.getLsbD 7

/-- A usable gauge sample is a height of at most 30 000 mm with FAULT clear (01 R4). -/
def gaugeSample : List Word → Option Nat
  | c :: h :: _ => if condFault c || Config.heightMax < h.toNat then none else some h.toNat
  | _ => none

/-- 07 Table 7.5, role VALVE. -/
def positionOfNum : Nat → Option Position
  | 0 => some .shut
  | 1 => some .opened
  | 2 => some .moving
  | 3 => some .between
  | _ => none

def valveSample : List Word → Option Position
  | c :: p :: _ => if condFault c then none else positionOfNum p.toNat
  | _ => none

/-- 07 Table 7.5, role GOVERNOR. -/
def limitOfNum : Nat → Option Limit
  | 0 => some .none
  | 1 => some .up
  | 2 => some .down
  | _ => none

def governorSample : List Word → Option (Nat × Limit)
  | c :: p :: d :: _ =>
    if condFault c || 100 < p.toNat then none
    else match limitOfNum d.toNat with
      | some l => some (p.toNat, l)
      | none => none
  | _ => none

/-- A usable recorder sample is a pressure of at most 1000 with FAULT clear (04 R83). -/
def recorderSample : List Word → Option Nat
  | c :: p :: _ => if condFault c || 1000 < p.toNat then none else some p.toNat
  | _ => none

/-- 07 Table 7.5, role METER: the high byte of word 2 is zero. -/
def meterSample : List Word → Option Nat
  | c :: a :: b :: _ => if condFault c || 255 < a.toNat then none else some (a.toNat * 65536 + b.toNat)
  | _ => none

/-- 07 Table 7.5, role BOOSTER. -/
def boosterSample : List Word → Option (Bool × Nat)
  | c :: r :: l :: _ =>
    if condFault c then none
    else match r.toNat with
      | 0 => some (false, l.toNat)
      | 1 => some (true, l.toNat)
      | _ => none
  | _ => none

/-- Word 3 of an ANSWER (07 R150): ATTENTION in bit 0, OVERRUN in bit 1. -/
def flagsWord (attention overrun : Bool) : Word :=
  BitVec.ofNat 16 ((if attention then 1 else 0) + (if overrun then 2 else 0))

/-- A counter rises by `k` and is held at its limit (07 R155). -/
def satAdd (limit n k : Nat) : Nat := min limit (n + k)

def countUp (n : Nat) : Nat := satAdd Config.counterMax n 1

/-- A yard flag is set or cleared (10 R203). -/
def setFlag (fs : BitVec 8) (i : Nat) (b : Bool) : BitVec 8 :=
  if b then fs ||| (1#8 <<< i) else fs &&& ~~~(1#8 <<< i)

/-- One two-bit code of SET FLAGS: keep, set, clear, toggle (10 R203). -/
def flagAfter (code : Nat) (b : Bool) : Bool :=
  match code with
  | 0 => b
  | 1 => true
  | 2 => false
  | _ => !b

/-- SET FLAGS: codes for flags 0-5 are applied, codes for 6 and 7 are ignored (10 R203). -/
def applyFlags (codes : Word) (fs : BitVec 8) : BitVec 8 :=
  [0, 1, 2, 3, 4, 5].foldl (fun acc i => setFlag acc i (flagAfter (codes.toNat / 4 ^ i % 4) (fs.getLsbD i))) fs

end Sys2Proof.Machine
end

