-- ==== Sys2Proof/Machine/Ops.lean ====
section
/-! DEFINITION. The named operations over the state that every unit shares: tables, records and slots, hand-offs,
notices (10 R204), the desk queues (07 R150), the settings in force, the directory's answers. -/

namespace Sys2Proof.Machine

/-! ### Tables keyed by number -/

def tblGet {α : Type} : Tbl α → Nat → Option α
  | [], _ => none
  | (k, a) :: r, n => if k = n then some a else tblGet r n

/-- The record of `n` becomes `a`, in its place of the rising order. -/
def tblPut {α : Type} : Tbl α → Nat → α → Tbl α
  | [], n, a => [(n, a)]
  | (k, b) :: r, n, a =>
    if n < k then (n, a) :: (k, b) :: r
    else if n = k then (n, a) :: r
    else (k, b) :: tblPut r n a

def tblDel {α : Type} : Tbl α → Nat → Tbl α
  | [], _ => []
  | (k, b) :: r, n => if k = n then r else (k, b) :: tblDel r n

/-- The canonical form: keys strictly rising. -/
def tblWf {α : Type} (t : Tbl α) : Bool := decide ((t.map Prod.fst).Pairwise (· < ·))

/-- A set of numbers as a rising list. -/
def setInsert (n : Nat) : List Nat → List Nat
  | [] => [n]
  | m :: r => if n < m then n :: m :: r else if n = m then m :: r else m :: setInsert n r

def setErase (n : Nat) (l : List Nat) : List Nat := l.filter (· != n)

/-! ### Records -/

def State.holder (s : State) (n : Nat) : Option Holder := tblGet s.holders n
def State.valve (s : State) (n : Nat) : Option Valve := tblGet s.valves n
def State.district (s : State) (n : Nat) : Option District := tblGet s.districts n
def State.booster (s : State) (n : Nat) : Option Booster := tblGet s.boosters n
def State.poll (s : State) (n : Nat) : Option PollPos := tblGet s.polls n
def State.entry (s : State) (station : Nat) : Option DirEntry := tblGet s.dir station
/-- The nine meter entries stand always; one never written holds its defaults (06 R119). -/
def State.meter (s : State) (n : Nat) : Meter := (tblGet s.meters n).getD Meter.initial

def State.setHolder (s : State) (n : Nat) (h : Holder) : State := { s with holders := tblPut s.holders n h }
def State.setValve (s : State) (n : Nat) (v : Valve) : State := { s with valves := tblPut s.valves n v }
def State.setDistrict (s : State) (n : Nat) (d : District) : State := { s with districts := tblPut s.districts n d }
def State.setBooster (s : State) (n : Nat) (b : Booster) : State := { s with boosters := tblPut s.boosters n b }
def State.setPoll (s : State) (n : Nat) (p : PollPos) : State := { s with polls := tblPut s.polls n p }
def State.setEntry (s : State) (station : Nat) (e : DirEntry) : State := { s with dir := tblPut s.dir station e }
def State.setMeter (s : State) (n : Nat) (m : Meter) : State := { s with meters := tblPut s.meters n m }

/-- The runtime record of a holder is changed; nothing happens where the holder has no record. -/
def State.modHolder (s : State) (n : Nat) (f : HolderRt → HolderRt) : State :=
  match s.holder n with
  | some h => s.setHolder n { h with rt := f h.rt }
  | none => s

/-- The runtime record of a district is changed. -/
def State.modDistrict (s : State) (n : Nat) (f : DistrictRt → DistrictRt) : State :=
  match s.district n with
  | some d => s.setDistrict n { d with rt := f d.rt }
  | none => s

def State.modBooster (s : State) (n : Nat) (f : Booster → Booster) : State :=
  match s.booster n with
  | some b => s.setBooster n (f b)
  | none => s

/-! ### Lines -/

def State.line (s : State) : FLine → LineUnit
  | .f1 => s.lines.f1
  | .f2 => s.lines.f2
  | .f3 => s.lines.f3

def State.setLine (s : State) (l : FLine) (u : LineUnit) : State :=
  match l with
  | .f1 => { s with lines := { s.lines with f1 := u } }
  | .f2 => { s with lines := { s.lines with f2 := u } }
  | .f3 => { s with lines := { s.lines with f3 := u } }

def State.modLine (s : State) (l : FLine) (f : LineUnit → LineUnit) : State := s.setLine l (f (s.line l))

def allLines : List FLine := [.f1, .f2, .f3]

/-- One counter of a line is changed (07 Table 7.13). -/
def countLine (f : Counters → Counters) (u : LineUnit) : LineUnit := { u with counters := f u.counters }

/-! ### Hand-offs -/

/-- Hand-offs are made after those already made in this hand-off's own course (log entry 3). -/
def State.hand (s : State) (hs : List Handoff) : State := { s with handoffs := s.handoffs ++ hs }

/-! ### Desk queues and notices -/

/-- A telegram of a relay class other than ANSWER enters the desk transmit queue, or is dropped and counted (07 R150). -/
def placeOther (o : DeskOut) (d : Desk) : Desk :=
  if d.tx.length < Config.deskTxOtherCap then { d with tx := d.tx ++ [o] }
  else { d with counters := { d.counters with deskDrops := countUp d.counters.deskDrops } }

/-- How many telegrams may wait where an ANSWER still enters the desk transmit queue (07 R150). The telegram being served finds room
for its one immediate ANSWER: while that is `owed`, an ANSWER of the part's own initiative leaves it the last place (log entry 110). -/
def answerRoom (owed : Bool) : Nat := if owed then Config.deskTxCap - 1 else Config.deskTxCap

/-- An ANSWER enters the desk transmit queue with the flags word of this moment, or is dropped and counted (07 R150); `owed` says that
the telegram being served still waits for its own. -/
def placeAnswer (tag : Nat) (res : Result) (request : Nat) (reason : Option Reason) (data : AnswerData) (d : Desk)
    (owed : Bool := false) : Desk :=
  if d.tx.length < answerRoom owed then
    { d with
      tx := d.tx ++ [.answer tag res request (flagsWord (!d.notices.isEmpty) d.overrun) reason data]
      overrun := false }
  else { d with counters := { d.counters with deskDrops := countUp d.counters.deskDrops } }

/-- A notice enters the notice queue and a NOTICE telegram is placed (10 R204); its tag counts the notice itself (log entry 19). -/
def addNotice (n : Notice) (d : Desk) : Desk :=
  let full := Config.noticeCap ≤ d.notices.length
  let tag := (d.noticeTag + 1) % 256
  placeOther (.notice tag n)
    { d with
      notices := (if full then d.notices.drop 1 else d.notices) ++ [n]
      lostNotices := if full then countUp d.lostNotices else d.lostNotices
      noticeTag := tag }

/-- A notice is raised: stamped with the yard clock (10 R204). -/
def State.notify (s : State) (k : NoticeKind) (sub : Subject) (det : Detail) : State :=
  { s with desk := addNotice ⟨k, sub, det, s.clock.day, s.clock.second, !s.clock.set⟩ s.desk }

/-- An ANSWER of the part's own for a relayed telegram (02 R47, 08 section 8.6): the destination station is the last data word. -/
def State.answerRelayed (s : State) (tag : Nat) (request : Nat) (res : Result) (reason : Option Reason) (station : Nat)
    (owed : Bool := false) : State :=
  { s with desk := placeAnswer tag res request reason (.words [station]) s.desk owed }

/-- The part's own answer to a desk ORDER to a bound target (02 R47): its tag, and the destination the desk gave it (10 R193). -/
def State.answerOrder (s : State) (g : DeskRef) (res : Result) (why : Option Reason) (owed : Bool := false) : State :=
  s.answerRelayed g.num codeRelayedOrder res why g.dest owed

/-- One answer to each of these desk orders, in their order (01 R22, 07 R157 step 6). -/
def State.answerEach (s : State) (res : Result) (gs : List DeskRef) (owed : Bool := false) : State :=
  gs.foldl (fun acc g => acc.answerOrder g res none owed) s

/-! ### Settings in force -/

/-- The station bound as `b`. -/
def State.boundTo (s : State) (b : Binding) : Option Nat :=
  match s.dir.find? fun p => p.2.binding == some b with
  | some p => some p.1
  | none => none

/-- The yard record as the units read it: the defaults while its present mark is clear, and while it is damaged, but for the
make meter station, which is then the one that the directory binds (10 R198, 11 Table 11.1). -/
def State.yardNow (s : State) : YardRec :=
  if s.yardDamaged then { YardRec.default with makeMeter := s.boundTo .makeMeter }
  else if s.yardPresent then s.yard
  else YardRec.default

/-- The line table entry in force (07 R154, 11 Table 11.1). -/
def lineSet (u : LineUnit) : LineSet := if u.damaged then LineSet.default else u.set

def State.drawRec (s : State) : DrawRec := if s.draw.recDamaged then ⟨[], 1⟩ else s.draw.tab
def State.drawMode (s : State) : Mode := if s.draw.modeDamaged then .manual else s.draw.mode
def State.poolMode (s : State) : Mode := if s.pool.modeDamaged then .manual else s.pool.mode

/-- A rota turn as it reads: a damaged turn reads as 0 (03 R54). -/
def turnHolder (t : Turn) : Nat := if t.damaged then 0 else t.holder

/-- The poll entry of a position as the part treats it: a damaged one is disabled (09 R177). -/
def pollEnabled (p : PollPos) : Bool := p.tab.enabled && !p.damaged

/-- The enabled poll entry of a station, with its position. -/
def State.enabledPoll (s : State) (station : Nat) : Option (Nat × PollPos) :=
  s.polls.find? fun p => pollEnabled p.2 && p.2.tab.station == station

/-! ### What the directory says -/

def State.stationLine (s : State) (station : Nat) : Option FLine :=
  match s.entry station with
  | some e => e.line
  | none => none

def State.isLost (s : State) (station : Nat) : Bool :=
  match s.entry station with
  | some e => e.lost
  | none => false

def State.bindingOf (s : State) (station : Nat) : Option Binding :=
  match s.entry station with
  | some e => e.binding
  | none => none

/-! ### Valves and slots -/

/-- The state recorded for a valve; none where the valve has no record. -/
def State.valveState (s : State) (v : Nat) : Option VState :=
  match s.valve v with
  | some x => some x.state
  | none => none

/-- The station of a valve; of a damaged record, the station bound "valve v" (11 Table 11.1), or, where none is bound so, the station
kept in the record (the model's choice, log entry 118). -/
def State.valveStation (s : State) (v : Nat) : Nat :=
  match s.valve v with
  | some x => if x.damaged then (s.boundTo (.valve v)).getD x.tab.station else x.tab.station
  | none => 0

/-- The holder that names a valve as its inlet. -/
def State.inletHolder (s : State) (v : Nat) : Option Nat :=
  match s.holders.find? fun p => p.2.tab.inlet == v with
  | some p => some p.1
  | none => none

/-- The holder that names a valve as its outlet. -/
def State.outletHolder (s : State) (v : Nat) : Option Nat :=
  match s.holders.find? fun p => p.2.tab.outlet == v with
  | some p => some p.1
  | none => none

/-- The holder that names a valve as inlet or outlet. -/
def State.valveHolder (s : State) (v : Nat) : Option Nat :=
  match s.inletHolder v with
  | some h => some h
  | none => s.outletHolder v

/-- The order slot of a target (02 R29); none where the target has no record. -/
def State.slot (s : State) : Target → Option Slot
  | .valve v => (s.valve v).map (·.slot)
  | .governor d => (s.district d).map (·.slot)
  | .booster b => (s.booster b).map (·.slot)

def State.setSlot (s : State) (t : Target) (sl : Slot) : State :=
  match t with
  | .valve v => match s.valve v with
    | some x => s.setValve v { x with slot := sl }
    | none => s
  | .governor d => match s.district d with
    | some x => s.setDistrict d { x with slot := sl }
    | none => s
  | .booster b => match s.booster b with
    | some x => s.setBooster b { x with slot := sl }
    | none => s

/-- The station an order of a target goes to. -/
def State.targetStation (s : State) : Target → Nat
  | .valve v => s.valveStation v
  | .governor d => match s.district d with
    | some x => x.tab.governor
    | none => 0
  | .booster b => match s.booster b with
    | some x => x.tab.station
    | none => 0

def targetSubject : Target → Subject
  | .valve v => .valve v
  | .governor d => .district d
  | .booster b => .booster b

def slotFree (sl : Slot) : Bool := sl.state == .free

/-- The desk order of an origin and its tag: a tag is present when the origin is DESK (02 Table 2.1). -/
def deskOf : Origin → Option DeskRef → Option DeskRef
  | .desk, tag => tag
  | _, _ => none

/-- A shut claim is SHUT to a valve or STOP to a booster (02 section 2.5). -/
def isShutCode (c : OrderCode) : Bool := c == .shut || c == .stop

/-- A slot holds a SHUT or STOP as its order or as its follow-up. -/
def slotHoldsShut (sl : Slot) : Bool := (!slotFree sl && isShutCode sl.code) || sl.followUp.isSome

/-- A slot holds an OPEN as its order. -/
def slotHoldsOpen (sl : Slot) : Bool := !slotFree sl && sl.code == .opn

/-- The valve's slot is FREE, or the valve has no record (03 R64, R75). -/
def State.valveFree (s : State) (v : Nat) : Bool :=
  match s.slot (.valve v) with
  | some sl => slotFree sl
  | none => true

def State.valveHoldsOpen (s : State) (v : Nat) : Bool :=
  match s.slot (.valve v) with
  | some sl => slotHoldsOpen sl
  | none => false

def State.valveHoldsShut (s : State) (v : Nat) : Bool :=
  match s.slot (.valve v) with
  | some sl => slotHoldsShut sl
  | none => false

/-- The travel allowance: the travel time plus one quarter of it, rounded up (02 R32); 900 s is taken for a damaged record. -/
def travelAllowance (v : Valve) : Nat :=
  let t := if v.damaged then 900 else v.tab.travel
  t + (t + 3) / 4

/-- The lift and start allowance of a booster in force (11 Table 11.1). -/
def boosterLift (b : Booster) : Nat := if b.damaged then 50 else b.tab.lift
def boosterAllowance (b : Booster) : Nat := if b.damaged then 600 else b.tab.allowance

/-- Detail of ORDER FAILED and VALVE LOCAL (10 Table 10.7). -/
def orderDetail (c : OrderCode) (o : Origin) (tag : Option DeskRef) : Detail :=
  .pair (orderCodeNum c * 256 + originCode o)
    (match o, tag with
      | .desk, some t => t.num
      | _, _ => 65535)

/-! ### Status outputs -/

/-- The run lamp is lit in RUN (00 section 0.8, 10 R199). -/
def runLamp (s : State) : Bool := s.runState == .run

/-- The attention lamp is lit while the notice queue is not empty (00 section 0.8, 10 R204). -/
def attentionLamp (s : State) : Bool := !s.desk.notices.isEmpty

/-- A timer held as an optional expiry has reached its expiry. -/
def State.reached (s : State) : Option Nat → Bool
  | some t => decide (t ≤ s.elapsed)
  | none => false

end Sys2Proof.Machine
end

