-- ==== Sys2Proof/Machine/Packing.lean ====
section
/-! DEFINITION. What the part sends on the desk line (07 R137-R139, 10 R192, R193, R204): the fields of a reading packed into
answer words, and each entry of the desk transmit queue as the telegram it becomes. The widths and the order of the packed
fields are the model's choice (log entry 13); the codes are those of 10 R193. -/

namespace Sys2Proof.Machine

/-! ### Packed fields -/

/-- One field of a packed answer: its width in bits, and its value. -/
abbrev Field := Nat × Nat

def fieldsWidth (fs : List Field) : Nat := fs.foldl (fun acc f => acc + f.1) 0

/-- The fields as one number, the first field highest. -/
def fieldsValue (fs : List Field) : Nat := fs.foldl (fun acc f => acc * 2 ^ f.1 + f.2 % 2 ^ f.1) 0

/-- Fields one behind another from the high bit of the first word; the last word is filled up with zeros. -/
def packFields (fs : List Field) : List Nat :=
  let k := (fieldsWidth fs + 15) / 16
  let v := fieldsValue fs * 2 ^ (16 * k - fieldsWidth fs)
  (List.range k).map fun i => v / 65536 ^ (k - 1 - i) % 65536

def flagField (b : Bool) : Field := (1, bit b)

/-- A signed value in two's complement. -/
def signedField (width : Nat) (i : Int) : Field := (width, (i % (2 ^ width : Nat)).toNat)

/-- A value that may be absent: a presence bit, and behind it the fields of a value that is present. -/
def optFields {α : Type} (f : α → List Field) : Option α → List Field
  | some a => (1, 1) :: f a
  | none => [(1, 0)]

def optNum (width : Nat) : Option Nat → List Field := optFields fun n => [(width, n)]

/-- A number that may be absent as a position: absent takes 0 and the number `n` takes `n + 1` (10 R193). -/
def posNum (width : Nat) : Option Nat → Field
  | some n => (width, n + 1)
  | none => (width, 0)

/-- A set of numbers: number `n` is bit `n - 1`. -/
def setField (width : Nat) (l : List Nat) : Field := (width, bits ((List.range width).map fun i => l.contains (i + 1)))

/-! ### Codes of the readings (10 R193) -/

/-- 01 Table 1.2, sighted state: absent takes position 0. -/
def sightedCode : Option Sighted → Nat
  | none => 0
  | some .grounded => 1
  | some .low => 2
  | some .working => 3
  | some .cup => 4
  | some .high => 5
  | some .top => 6

def motionCode : Motion → Nat
  | .rising => 0
  | .falling => 1
  | .still => 2

/-- 02 Table 2.1. -/
def slotStateCode : SlotState → Nat
  | .free => 0
  | .queued => 1
  | .sent => 2
  | .travel => 3

def modeCode : Mode → Nat
  | .auto => 0
  | .manual => 1

def bStateCode : BState → Nat
  | .free => 0
  | .starting => 1
  | .running => 2
  | .stopping => 3
  | .failed => 4
  | .out => 5

/-- The code of a value whose list begins with absent. -/
def optCode {α : Type} (f : α → Nat) : Option α → Nat
  | some a => f a
  | none => 0

/-! ### Readings -/

/-- The fault cause: the valve numbers of the two valve causes, and the two others (01 Table 1.2). -/
def causeFields (c : Causes) : List Field :=
  [setField 8 c.stuck, setField 8 c.unknown, flagField c.gauge, flagField c.record]

/-- An origin, with the desk tag where it is DESK (02 Table 2.1). -/
def originFields (o : Origin) (tag : Option Nat) : List Field :=
  (4, originCode o) :: (if o = .desk then [(8, tag.getD 0)] else [])

/-- The seconds since an issued time: 16 bits behind a clear bit, 32 behind a set one where they need more. -/
def ageFields (n : Nat) : List Field := if n < 65536 then [(1, 0), (16, n)] else [(1, 1), (32, n)]

/-- The form in which every slot is shown (02 R51). -/
def slotFields (x : ShownSlot) : List Field :=
  (2, slotStateCode x.state) :: (match x.order with
    | none => []
    | some o =>
      [(3, orderCodeNum o.code)] ++ originFields o.origin o.tag ++ ageFields o.age ++ [posNum 11 o.deadlineLeft, flagField o.checkPending]
      ++ optFields (fun p => originFields p.1 p.2) o.followUp)

/-- 01 R26, the record of Table 1.2; one stale mark goes with pressure, stock, rate and sighted state, one with the height. -/
def holderFields (h : HolderRt) (graceLeft parkLeft : Option Nat) : List Field :=
  [(4, hStateCode h.state), (3, sightedCode h.sighted), (2, h.cupIndex)]
  ++ optFields (fun x => [(15, x.mm), (16, x.day), (17, x.second), flagField x.stale]) h.height
  ++ [(3, h.lifts), (10, h.pressure), (32, h.stock), (32, h.reserveStock), signedField 16 h.rate, flagField h.stale]
  ++ optFields (fun p => [(15, p.1), (32, p.2)]) h.rateBase
  ++ [(2, motionCode h.motion)] ++ optNum 15 h.windowMark
  ++ [(2, h.stillCount), flagField h.longStill, flagField h.fast, flagField h.fillBar, flagField h.drawBar, flagField h.latch]
  ++ causeFields h.causes ++ optNum 16 graceLeft
  ++ [flagField h.blindShutDue, flagField h.noticed.top, flagField h.noticed.grounded, flagField h.noticed.fault,
      flagField h.noticed.blind]
  ++ optFields (fun q => [(4, q.valve), (3, orderCodeNum q.code), (8, q.tag.num), (9, parkLeft.getD 0)]) h.park

/-- 02 R51. -/
def valveFields (station travel allowance : Nat) (state : VState) (localHand : Bool) (slot : ShownSlot) : List Field :=
  [(8, station), (10, travel), (11, allowance), (3, vStateCode state), flagField localHand] ++ slotFields slot

/-- 04 R98, the record of Table 4.2. -/
def districtFields (d : DistrictRt) (seg : Option Segment) (settleLeft : Option Nat) (headNoLift : Int) (margin : Nat)
    (slot : ShownSlot) : List Field :=
  [(2, dStateCode d.state)]
  ++ optFields (fun g => [flagField g.profB, (3, g.index)]) d.seg
  ++ optFields (fun g => [(11, g.start), (9, g.setpoint)]) seg
  ++ optNum 9 d.target
  ++ optFields (fun x => [(10, x.value), (16, x.day), (17, x.second), flagField x.stale]) d.last
  ++ [flagField d.recorderFault] ++ optNum 7 d.position
  ++ [(2, limitCode d.limit), flagField d.limitNoticed, flagField d.governorFault, signedField 16 d.head, flagField d.headStale,
      flagField d.headShort]
  ++ optNum 16 settleLeft
  ++ [(2, d.shed), (2, d.held), flagField d.boosted, (9, d.lift)] ++ optNum 10 d.minP ++ optNum 10 d.maxP
  ++ [(16, d.shedMin), (16, d.boostMin), signedField 16 headNoLift, (16, margin)] ++ slotFields slot

/-! ### READ BOOSTERS (05 R116)

Its fields do not fit the 29 words of an ANSWER as fields of bits, so each is given as a digit with as many values as it can have. -/

/-- A digit: how many values it has, and its value. -/
abbrev Digit := Nat × Nat

def digitsSize (ds : List Digit) : Nat := ds.foldr (fun d n => d.1 * n) 1

/-- The digits as one number, the first digit lowest: it is the remainder of the number by its size, and the quotient is the number
of the digits behind it. -/
def digitsValue (ds : List Digit) : Nat := ds.foldr (fun d n => d.2 % d.1 + d.1 * n) 0

/-- The number in as many words as its digits need, its high word first. -/
def packDigits (ds : List Digit) : List Nat :=
  let k := (digitsSize ds - 1).log2 / 16 + 1
  (List.range k).map fun i => digitsValue ds / 65536 ^ (k - 1 - i) % 65536

/-- A number that may be absent as a position: absent takes 0 and the number `n` takes `n + 1` (10 R193). -/
def posDigit (size : Nat) : Option Nat → Digit
  | some n => (size, n + 1)
  | none => (size, 0)

/-- The queue in its order, which names no district twice (05 R104): each as its place among the `n` of `rest` not named yet. -/
def queueDigits (n : Nat) (rest : List Nat) : List Nat → List Digit
  | [] => []
  | d :: q => (n, rest.idxOf d) :: queueDigits (n - 1) (rest.erase d) q

/-- The booster holds a district (05 Table 5.1). -/
def ShownBooster.holds (x : ShownBooster) : Bool := x.state == .starting || x.state == .running

/-- What an order of a booster's slot has in one state of the slot only (02 R38, Table 2.1): in TRAVEL the seconds to the deadline, or
602 for a check pending, with which no second is left; in SENT a follow-up, which is a STOP, so that a booster with one holds no
district (05 R109, R112). -/
def orderStateDigits (holds : Bool) (st : SlotState) (o : ShownOrder) : List Digit :=
  match st with
  | .travel => [if o.checkPending then (603, 602) else posDigit 603 o.deadlineLeft]
  | .sent => if holds then [] else match o.followUp with
    | some f => [(2, 1), (9, originCode f.1), (256, f.2.getD 0)]
    | none => [(2, 0)]
  | _ => []

/-- The slot of a booster in the form of READ VALVE (02 R51), its order and its origin by their codes (10 R193). -/
def boosterSlotDigits (holds : Bool) (x : ShownSlot) : List Digit :=
  (4, slotStateCode x.state) :: (match x.order with
    | none => []
    | some o =>
      [(8, orderCodeNum o.code), (9, originCode o.origin), (256, o.tag.getD 0), (4294967296, o.age)] ++ orderStateDigits holds x.state o)

/-- What a booster has while it holds a district only (05 Table 5.1): the district, the seconds to its release, and a stop due. -/
def holdingDigits (x : ShownBooster) : List Digit :=
  if x.holds then
    [posDigit 9 (x.district.map (· - 1)), posDigit 3602 x.releaseLeft, (4, optCode stopCauseCode x.stopDue)]
  else []

/-- A booster with a record (05 Table 5.1, R116). A number whose range does not begin at 0 is given less its lowest value. -/
def boosterDigits (x : ShownBooster) : List Digit :=
  [(199, x.tab.station - 1), (2, bit x.tab.inService), (251, x.tab.lift - 50), (571, x.tab.allowance - 30), (6, bStateCode x.state)]
  ++ holdingDigits x
  ++ [(8, optCode failCauseCode x.cause), posDigit 131073 (x.sample.map fun p => bit p.1 * 65536 + p.2), posDigit 602 x.undecidedLeft]
  ++ boosterSlotDigits x.holds x.slot

/-- One booster, or that it has no record. -/
def shownDigits : Option ShownBooster → List Digit
  | some x => (2, 1) :: boosterDigits x
  | none => [(2, 0)]

/-- The boosters 1 to 3 that hold a district. -/
def holding (bs : List ShownBooster) : List ShownBooster :=
  ([1, 2, 3].filterMap fun n => bs.find? (·.number == n)).filter (·.holds)

/-- The queue: how long it is, and its districts, none of which a booster holds (05 R103, R104). -/
def poolQueueDigits (held : List ShownBooster) (queue : List Nat) : List Digit :=
  (9 - held.length, queue.length)
    :: queueDigits (8 - held.length) ([1, 2, 3, 4, 5, 6, 7, 8].filter fun d => !(held.map (·.district)).contains (some d)) queue

/-- 05 R116: the pool mode, the boosters with a record, the queue, the usable stock, the reserve level (0 for an unjudged reserve,
else one more than the level), the recovery timer, and the shed level of each district with a record. Whatever the state, they fit
the 29 words that an ANSWER has for them (Laws/Packing.lean). -/
def poolDigits (p : Pool) (bs : List ShownBooster) (recoveryLeft : Option Nat) (shed : List (Nat × Nat)) : List Digit :=
  (2, modeCode p.mode) :: ([1, 2, 3].flatMap fun n => shownDigits (bs.find? (·.number == n)))
  ++ poolQueueDigits (holding bs) p.queue
  ++ [(1919809, p.usable), posDigit 5 (if p.judged then some p.level else none), posDigit 7202 recoveryLeft]
  ++ [1, 2, 3, 4, 5, 6, 7, 8].map fun d => posDigit 5 (tblGet shed d)

/-- A directory entry with the fields of 08 Table 8.1. -/
def entryFields (p : Nat × DirEntry) : List Field :=
  [(8, p.1), (2, locationWord p.2.line), (2, entryKindCode p.2.kind), (3, roleCode p.2.binding), (4, bindingNumber p.2.binding),
   flagField p.2.staticMark, flagField p.2.heard, (32, p.2.seq), flagField p.2.lost, (4, p.2.failures), (12, p.2.groups.toNat),
   flagField p.2.watch, flagField p.2.damaged]

/-- The data of an ANSWER in words. -/
def answerWords : AnswerData → List Nat
  | .words ws => ws
  | .causes c => packFields (causeFields c)
  | .holder h g p => packFields (holderFields h g p)
  | .valve st tr al v lo sl => packFields (valveFields st tr al v lo sl)
  | .district d seg se hd mg sl => packFields (districtFields d seg se hd mg sl)
  | .boosters p bs r sh => packDigits (poolDigits p bs r sh)
  | .entries es f l st b =>
    packFields ([(3, es.length)] ++ es.flatMap entryFields ++ optNum 8 f ++ [(7, l), (7, st), (7, b)])

/-! ### Telegrams from the part -/

/-- A telegram of the part's own on the desk line: destination 0, source 0, source line "part" (07 R137, R138). -/
def ownDeskTelegram (k : Kind) (c : RelayClass) (tag : Nat) (body : List Nat) : Telegram :=
  { dest := 0, src := 0, kind := k, replyExpected := false, rept := false, tag := tag, env := some (0#8, byteOf (relayCode c)),
    body := body.map wordOf }

/-- The body of an ANSWER: result, request and flags, the reason of a REFUSED, and the data (10 R192, R193). -/
def answerBody (result : Result) (request : Nat) (flags : Word) (reason : Option Reason) (data : AnswerData) : List Nat :=
  [resultCode result, request, flags.toNat] ++ ((match reason with
    | some r => [reasonCode r]
    | none => []) ++ answerWords data).take 29

/-- The telegram that an entry of the desk transmit queue becomes (07 R138, 10 R192, R204). -/
def deskTelegram : DeskOut → Telegram
  | .answer tag result request flags reason data =>
    ownDeskTelegram .answer .answer tag (answerBody result request flags reason data)
  | .notice tag n => ownDeskTelegram .notice .notice tag (noticeWords n)
  | .relayed c l t => relayTelegram c l t

/-- What is sent on D of a queue: the telegram of its head. -/
def deskSending (tx : List DeskOut) : Option Telegram :=
  match tx with
  | o :: _ => some (deskTelegram o)
  | [] => none

end Sys2Proof.Machine
end

