-- ==== Sys2Proof/Machine/Lines.lean ====
section
/-! DEFINITION. The line units (07 R142-R157): selection, sending, quarantine, the queues' placements and removals. -/

namespace Sys2Proof.Machine

/-! ### Selection (07 R149) -/

def weightOf (u : LineUnit) : TurnOwner → Nat
  | .q1 => (lineSet u).w1
  | .q2 => (lineSet u).w2

def otherOwner : TurnOwner → TurnOwner
  | .q1 => .q2
  | .q2 => .q1

def queueEmpty (u : LineUnit) : TurnOwner → Bool
  | .q1 => u.q1.isEmpty
  | .q2 => u.q2.isEmpty

/-- The head of an owner's queue is selected; the owner's count becomes `n`. -/
def takeTurn (u : LineUnit) (o : TurnOwner) (n : Nat) : LineUnit :=
  match o with
  | .q1 => match u.q1 with
    | c :: r => { u with q1 := r, selected := some (.copy c), owner := .q1, turns := n }
    | [] => u
  | .q2 => match u.q2 with
    | p :: r => { u with q2 := r, selected := some (.poll p), owner := .q2, turns := n }
    | [] => u

def q0Out : Q0Entry → Outgoing
  | .slot t station => .order t station
  | .desk t => .unbound t

/-- The four steps of 07 R149. -/
def selectNext (u : LineUnit) : LineUnit :=
  match u.q0 with
  | e :: r => { u with q0 := r, selected := some (q0Out e) }
  | [] =>
    if u.q1.isEmpty && u.q2.isEmpty then u
    else if !queueEmpty u u.owner && u.turns < weightOf u u.owner then takeTurn u u.owner (u.turns + 1)
    else if !queueEmpty u (otherOwner u.owner) then takeTurn u (otherOwner u.owner) 1
    else takeTurn u u.owner 1

/-- An IDLE line with nothing selected selects (07 R149); a telegram selected and not yet sent stands (the model's choice, log entry 92). -/
def wakeUnit (u : LineUnit) : LineUnit :=
  if u.mode = .idle ∧ u.selected = none then selectNext u else u

/-- A line is changed by a placement or removal and selects where it stands IDLE (07 R149). -/
def State.place (s : State) (l : FLine) (f : LineUnit → LineUnit) : State := s.modLine l fun u => wakeUnit (f u)

/-- The line enters IDLE: the exchange record is cleared, the rate written is taken and the line selects (07 R147, R154). -/
def enterIdle (u : LineUnit) : LineUnit :=
  wakeUnit { u with mode := .idle, exch := none, sending := none, rate := (lineSet u).rate }

/-! ### Placements (07 R148) -/

def placeQ0 (e : Q0Entry) (u : LineUnit) : LineUnit := { u with q0 := u.q0 ++ [e] }
def placeQ0Head (e : Q0Entry) (u : LineUnit) : LineUnit := { u with q0 := e :: u.q0 }
def placeQ1 (c : DeskCopy) (u : LineUnit) : LineUnit := { u with q1 := u.q1 ++ [c] }

def q1Full (u : LineUnit) : Bool := Config.q1Cap ≤ u.q1.length

def countOverrun (k : Nat) : LineUnit → LineUnit :=
  countLine fun c => { c with overrun := satAdd Config.counterMax c.overrun k }

def pollIn (station : Nat) (u : LineUnit) : Option PartPoll := u.q2.find? (·.station == station)

/-- A cycle poll is offered to Q2: placed at the tail, or not placed (07 R148); says whether it was placed. Where its
station has a poll in a full Q2 no overrun drop is counted (the model's choice, log entry 124). -/
def offerPoll (p : PartPoll) (u : LineUnit) : LineUnit × Bool :=
  if (pollIn p.station u).isSome then (u, false)
  else if Config.q2Cap ≤ u.q2.length then (countOverrun 1 u, false)
  else ({ u with q2 := u.q2 ++ [p] }, true)

/-- A check poll enters at the head of Q2, or the poll standing there for the station is moved to the head and marked;
a full Q2 loses its tail (07 R148). A poll so moved keeps the class and the retries it was placed with, and a search mark (the model's
choices, log entries 114 and 113). -/
def placeCheck (p : PartPoll) (u : LineUnit) : LineUnit :=
  match pollIn p.station u with
  | some q => { u with q2 := { q with check := true, asked := true } :: u.q2.filter (·.station != p.station) }
  | none =>
    if Config.q2Cap ≤ u.q2.length then countOverrun 1 { u with q2 := p :: u.q2.dropLast }
    else { u with q2 := p :: u.q2 }

/-- The queued order of a slot is taken out, from Q0 or from the selection (log entry 39). -/
def withdraw (t : Target) (u : LineUnit) : LineUnit :=
  let isIt := fun e => match e with
    | Q0Entry.slot t' _ => t' == t
    | Q0Entry.desk _ => false
  let sel := match u.selected with
    | some (.order t' st) => if t' = t then none else some (.order t' st)
    | o => o
  { u with q0 := u.q0.filter fun e => !isIt e, selected := sel }

def State.withdrawOrder (s : State) (t : Target) : State :=
  allLines.foldl (fun acc l => acc.place l (withdraw t)) s

/-- The copies of a flood record standing in Q1 are removed (08 R167). -/
def dropCopies (id : Nat) (u : LineUnit) : LineUnit := { u with q1 := u.q1.filter (·.flood != some id) }

/-! ### The move of a station's telegrams (08 R161, 09 R181) -/

def q0Station : Q0Entry → Nat
  | .slot _ st => st
  | .desk t => t.dest

/-- A poll that has moved is placed on its new line (08 R161), also where its Q2 holds 64 (the model's choice, log entry 128). -/
def receivePoll (p : PartPoll) (u : LineUnit) : LineUnit :=
  match pollIn p.station u with
  | some _ => { u with q2 := u.q2.map fun q => if q.station = p.station then { q with check := q.check || p.check, asked := q.asked || p.asked } else q }
  | none => if p.check then { u with q2 := p :: u.q2 } else { u with q2 := u.q2 ++ [p] }

/-- The telegrams queued for a station pass from one line's Q0 and Q2 to another's (08 R161); a search poll so moved is one
no longer (log entry 26). -/
def State.moveQueued (s : State) (station : Nat) (old new : FLine) : State :=
  if old = new then s
  else
    let u := s.line old
    let orders := u.q0.filter (q0Station · == station)
    let polls := (u.q2.filter (·.station == station)).map fun p => { p with search := false }
    let s := s.setLine old { u with q0 := u.q0.filter (q0Station · != station), q2 := u.q2.filter (·.station != station) }
    s.place new fun v => polls.foldl (fun w p => receivePoll p w) { v with q0 := v.q0 ++ orders }

/-- A search poll for a station. -/
def searchesFor (station : Nat) (p : PartPoll) : Bool := p.search && p.station == station

/-- A station located on `new`: the search polls for it standing in the other Q2 queues are moved there (09 R181). One standing in the
Q2 of `new` itself stays the search poll it is, so that its failure is not charged (the model's choice, log entry 113; of those moved,
log entry 26). -/
def State.gatherPolls (s : State) (station : Nat) (new : FLine) : State :=
  allLines.foldl (fun acc l =>
    if l = new then acc
    else
      let u := acc.line l
      let polls := (u.q2.filter (searchesFor station)).map fun p => { p with search := false }
      (acc.setLine l { u with q2 := u.q2.filter fun p => !searchesFor station p }).place new
        fun v => polls.foldl (fun w p => receivePoll p w) v) s

/-! ### Telegrams to send (07 R137, R145) -/

/-- The telegram of an order slot, with reply-expected set (02 R31, 08 R168): the desk's own has its tag and its body as the desk
sent them (07 R138), one of the part's own the line's tag, and its code and argument in words 1 and 2 (07 Table 7.3). -/
def orderTelegram (sl : Slot) (station lineTag : Nat) : Telegram :=
  let own : Nat × List Word := (lineTag, [wordOf (orderCodeNum sl.code), wordOf sl.arg])
  let said := match deskOf sl.origin sl.tag with
    | some g => (g.num, g.body)
    | none => own
  { dest := station, src := 0, kind := .order, replyExpected := true, rept := false, tag := said.1, env := none, body := said.2 }

def pollTelegram (station lineTag : Nat) : Telegram :=
  { dest := station, src := 0, kind := .poll, replyExpected := true, rept := false, tag := lineTag, env := none, body := [] }

/-- The telegram selected, as it is sent; an order whose slot is gone makes none. -/
def State.telegramOf (s : State) (u : LineUnit) : Outgoing → Option Telegram
  | .order t st => (s.slot t).map fun sl => orderTelegram sl st u.tag
  | .unbound t => some (fieldOfDesk t)
  | .copy c => some (fieldOfDesk c.tel)
  | .poll p => some (pollTelegram p.station u.tag)

/-- Timeout class and retries (07 R145). -/
def State.classOf (s : State) : Outgoing → Nat × Nat
  | .order _ _ | .unbound _ => (3, 2)
  | .poll p => (p.cls, p.retries)
  | .copy c =>
    if c.tel.order then (3, 2)
    else match s.enabledPoll c.tel.dest with
      | some (_, p) => (p.tab.cls, p.tab.retries)
      | none => (3, 1)

/-- A telegram that opens an exchange (07 R145). -/
def opensExchange (t : Telegram) : Bool :=
  (t.kind == .poll || t.kind == .order) && decide (1 ≤ t.dest ∧ t.dest ≤ 199) && t.replyExpected

def expectedKind (t : Telegram) : Kind := if t.kind = .order then .orderAck else .report

/-- The exchange record at the end of a first transmission (07 Table 7.6). -/
def State.openExchange (s : State) (o : Outgoing) (t : Telegram) : Exchange :=
  let c := s.classOf o
  { station := t.dest, tag := t.tag, expected := expectedKind t, what := o, sent := t, cls := c.1, retries := c.2, left := c.2,
    deadline := some (Config.replyTimeout c.1), repeatDue := false, last := .noResponse,
    check := (match o with
      | .poll p => p.asked
      | _ => false) }

/-! ### Quarantine (07 R151, R152) -/

/-- The count of a failed attempt on a line not quarantined (07 R151, steps 1 to 3). -/
def countFailure (station : Nat) (u : LineUnit) : LineUnit :=
  if u.fails = 0 then { u with fails := 1, first := some station, second := false }
  else { u with fails := satAdd 255 u.fails 1, second := u.second || u.first != some station }

def clearRun (u : LineUnit) : LineUnit := { u with fails := 0, first := none, second := false }

/-- A failed attempt counts toward quarantine (07 R151). -/
def State.failAttempt (s : State) (l : FLine) (station : Nat) : State :=
  let u := s.line l
  if u.quarantined then s
  else
    let v := countFailure station u
    if Config.quarantineFails ≤ v.fails && v.second then
      (s.setLine l (countLine (fun c => { c with quarantine := countUp c.quarantine }) { v with quarantined := true })).notify
        .lineQuarantined (.line l) (.one v.fails)
    else s.setLine l v

/-- A good telegram is counted and restores a quarantined line (07 R142, R152). -/
def State.goodTelegram (s : State) (l : FLine) : State :=
  let u := countLine (fun c => { c with telegramsIn := countUp c.telegramsIn }) { s.line l with receiving := false }
  if u.quarantined then
    (s.setLine l (clearRun { u with quarantined := false })).notify .lineRestored (.line l) .absent
  else s.setLine l u

/-- 07 R143. -/
def State.countStray (s : State) (l : FLine) : State := s.modLine l (countLine fun c => { c with strays := countUp c.strays })

/-! ### Classing a reception (07 R143, R146) -/

/-- From the awaited station, with the exchange's tag, and no ALERT (07 R146). -/
def answersExchange (e : Exchange) (t : Telegram) : Bool :=
  t.kind != .alert && t.src == e.station && t.tag == e.tag

/-- A telegram that fails the attempt is counted as a stray too where R143 names it as one: it is sent to an outstation, so that it is
not the reply (R146), or it is neither a REPORT nor an ORDER-ACK (DEDUCED, log entry 68). -/
def strayBesides (t : Telegram) : Bool := t.dest != 0 || (t.kind != .report && t.kind != .orderAck)

/-- What a good telegram on a field line is (07 R143, R146). -/
inductive FieldClass | reply (e : Exchange) | wrongForm (e : Exchange) | alert | stray
  deriving DecidableEq, Repr

/-- The exchange a line awaits the reply of. -/
def awaited (u : LineUnit) : Option Exchange := if u.mode = .awaiting then u.exch else none

/-- A telegram of the awaited station and tag that is of another kind or form fails the attempt, whatever its destination (log entry
41), and may be a stray besides (`strayBesides`); one of the right form is the reply only when it is sent to station 0. -/
def fieldClass (u : LineUnit) (t : Telegram) : FieldClass :=
  let byKind := if t.kind = .alert ∧ 1 ≤ t.src ∧ t.src ≤ 199 then FieldClass.alert else .stray
  match awaited u with
  | none => byKind
  | some e =>
    if answersExchange e t then
      if t.kind = e.expected ∧ rightForm t.kind t.body = true then (if t.dest = 0 then .reply e else .stray) else .wrongForm e
    else byKind

end Sys2Proof.Machine
end

