-- ==== Sys2Proof/Machine/Directory.lean ====
section
/-! DEFINITION. The station directory (08 R158-R165, R172-R176): entries, learning, eviction, bindings, the watch list. -/

namespace Sys2Proof.Machine

def freshEntry (line : Option FLine) (kind : EntryKind) (binding : Option Binding) (heard : Bool) (groups : BitVec 12) : DirEntry :=
  { line := line, kind := kind, binding := binding, staticMark := false, heard := heard, seq := 0, lost := false, failures := 0,
    groups := groups, watch := false, damaged := false }

/-- The creation count rises and is the new entry's learned sequence (08 R158). -/
def State.createEntry (s : State) (station : Nat) (e : DirEntry) : State :=
  let n := s.relay.creation + 1
  { s with dir := tblPut s.dir station { e with seq := n }, relay := { s.relay with creation := n } }

def State.removeEntry (s : State) (station : Nat) : State := { s with dir := tblDel s.dir station }

def State.modEntry (s : State) (station : Nat) (f : DirEntry → DirEntry) : State :=
  match s.entry station with
  | some e => s.setEntry station (f e)
  | none => s

/-- The LEARNED entry with the smallest learned sequence (08 R160). -/
def oldestLearned (t : Tbl DirEntry) : Option Nat :=
  (t.foldl (fun acc p =>
    if p.2.kind = .learned then
      match acc with
      | none => some p
      | some q => if p.2.seq < q.2.seq then some p else some q
    else acc) (none : Option (Nat × DirEntry))).map (·.1)

/-- Room for one entry: a free place, or a LEARNED entry evicted (08 R160). -/
def State.makeRoom (s : State) : Option State :=
  if s.dir.length < Config.dirCap then some s
  else match oldestLearned s.dir with
    | some v => some (s.removeEntry v)
    | none => none

/-- The directory is full and no entry can go: the directory-full counter rises (08 R160). -/
def State.countDirFull (s : State) : State := { s with relay := { s.relay with dirFull := countUp s.relay.dirFull } }

/-- A write refused for its bindings or its directory entry: a FULL one counts (08 R160), also where a district write needs more than
the places and LEARNED entries there are (the model's choice, log entry 104). -/
def State.countRefusal (s : State) (e : Result) : State := if e = .full then s.countDirFull else s

/-- The stations of the watch list, in rising order (08 R172; log entry 40). -/
def watchList (t : Tbl DirEntry) : List Nat := (t.filter (·.2.watch)).map (·.1)

/-! ### Learning (08 R159, R161, 09 R181) -/

/-- A station is heard on a line: the entry is created, moved or marked heard (08 R159). The search polls for it that stand on the other
lines are moved whatever telegram located it (the model's choice for a search poll's own reply, log entry 108). -/
def State.learn (s : State) (inhibit : Bool) (l : FLine) (station : Nat) : State :=
  match s.entry station with
  | none =>
    if inhibit then s
    else match s.makeRoom with
      | some t => (t.createEntry station (freshEntry (some l) .learned none true 0#12)).gatherPolls station l
      | none => s.countDirFull
  | some e =>
    if e.line = some l then s.setEntry station { e with heard := true }
    else if inhibit then s
    else
      let t := s.setEntry station { e with heard := true, line := some l, damaged := false }
      match e.line with
      | some old =>
        (t.notify .stationMoved (.station station) (.pair (lineNum old) (lineNum l))).moveQueued station old l
      | none => t.gatherPolls station l

/-! ### Bindings (08 R163, R164) -/

/-- A binding of a write fails for want of the station (08 R163, CONFLICT). -/
def State.bindConflict (s : State) (b : Binding × Nat) : Bool :=
  match s.entry b.2 with
  | some e => e.kind == .bound && e.binding != some b.1
  | none => false

/-- All the bindings of one write are examined: CONFLICT before FULL (08 R163). -/
def State.examineBindings (s : State) (bs : List (Binding × Nat)) : Option Result :=
  let stations := bs.map (·.2)
  let absent := stations.filter fun st => (s.entry st).isNone
  let evictable := (s.dir.filter fun p => p.2.kind == .learned && !stations.contains p.1).length
  if bs.any s.bindConflict || !decide stations.Nodup then some .conflict
  else if Config.dirCap - s.dir.length + evictable < absent.length then some .full
  else none

/-- Entries of this kind become BOUND in place, before any absent one is created (08 R163). -/
def State.bindPresent (s : State) (b : Binding × Nat) : State :=
  s.modEntry b.2 fun e =>
    match e.kind with
    | .bound => e
    | .static => { e with kind := .bound, binding := some b.1, staticMark := true }
    | .learned => { e with kind := .bound, binding := some b.1, staticMark := false }

/-- An absent station is given a BOUND entry, UNLOCATED, evicting where needed (08 R163); where there is no room, at start-up only, no
binding is made (the model's choice, log entry 107). -/
def State.bindAbsent (s : State) (b : Binding × Nat) : State :=
  match s.entry b.2 with
  | some _ => s
  | none => match s.makeRoom with
    | some t => t.createEntry b.2 (freshEntry none .bound (some b.1) false 0#12)
    | none => s

def State.bindAll (s : State) (bs : List (Binding × Nat)) : State := bs.foldl State.bindAbsent (bs.foldl State.bindPresent s)

/-- An entry loses its binding (08 R164); one STATIC again has its static mark clear (the model's choice, log entry 105). An entry that
stays is rewritten, which clears its damage mark (11 R209): that losing a binding is such a rewrite is the model's choice (log entry
112). -/
def State.unbindEntry (s : State) (station : Nat) : State :=
  match s.entry station with
  | none => s
  | some e =>
    if e.staticMark then s.setEntry station { e with kind := .static, binding := none, staticMark := false, damaged := false }
    else if e.heard then s.setEntry station { e with kind := .learned, binding := none, damaged := false }
    else s.removeEntry station

/-- A binding is removed (08 R164; a damaged entry's mark: log entry 112). -/
def State.unbind (s : State) (b : Binding) : State :=
  match s.boundTo b with
  | none => s
  | some station => s.unbindEntry station

/-- The station held for a binding that a write moves to another station, or makes absent, loses it after the new
bindings are made (08 R164; a damaged entry's mark: log entry 112). -/
def State.rebind (s : State) (olds : List Binding) (news : List (Binding × Nat)) : State :=
  let moved := olds.filter fun b =>
    match s.boundTo b with
    | some st => !news.contains (b, st)
    | none => false
  let stations := moved.filterMap s.boundTo
  let t := s.bindAll (news.filter fun b => s.boundTo b.1 != some b.2)
  stations.foldl State.unbindEntry t

/-! ### Directory writes (08 R165) -/

/-- A desk directory write whose values are in range: the state after it, or FULL. -/
def State.writeDirectory (s : State) (r : DirWrite) : Except Result State :=
  match s.entry r.station with
  | none => match s.makeRoom with
    | some t =>
      let u := t.createEntry r.station (freshEntry r.line .static none false r.groups)
      .ok (match r.line with
        | some l => u.gatherPolls r.station l
        | none => u)
    | none => .error .full
  | some e =>
    let kind := if e.kind = .learned then EntryKind.static else e.kind
    let t := s.setEntry r.station { e with kind := kind, line := r.line, groups := r.groups, damaged := false }
    .ok (match e.line, r.line with
      | some old, some l => t.moveQueued r.station old l
      | none, some l => t.gatherPolls r.station l
      | _, none => t)

/-! ### Requests and sweeps (08 R162, R172-R174) -/

/-- WATCH ON or OFF of a station that has an entry: none where the list is full (08 R172). -/
def State.setWatch (s : State) (station : Nat) (on : Bool) : Option State :=
  match s.entry station with
  | none => some s
  | some e =>
    if on && !e.watch && Config.watchCap ≤ (watchList s.dir).length then none
    else some (s.setEntry station { e with watch := on })

/-- The filter of SEARCH, as its words give it (08 R173; log entry 11). -/
def searchMatch (line kind group : Nat) (e : DirEntry) : Bool :=
  (line == 0 || (if line == 4 then e.line.isNone else e.line == lineOfNum line && e.line.isSome))
  && (kind == 0 || entryKindCode e.kind + 1 == kind)
  && (group == 0 || e.groups.getLsbD (group - 200))

def searchHits (t : Tbl DirEntry) (start line kind group : Nat) : Tbl DirEntry :=
  t.filter fun p => decide (start ≤ p.1) && searchMatch line kind group p.2

def countKind (t : Tbl DirEntry) (k : EntryKind) : Nat := (t.filter fun p => p.2.kind == k).length

/-- The answer to SEARCH: up to 4 entries, the station that follows, the entries held by kind (08 R173; log entry 44). -/
def searchAnswer (t : Tbl DirEntry) (start line kind group : Nat) : AnswerData :=
  let hits := searchHits t start line kind group
  .entries (hits.take 4) ((hits.drop 4).head?.map (·.1)) (countKind t .learned) (countKind t .static) (countKind t .bound)

/-- Every LEARNED entry goes (08 R174, R176). -/
def dropLearned (t : Tbl DirEntry) : Tbl DirEntry := t.filter (·.2.kind != .learned)

/-- The aging sweep (08 R162). -/
def agingSweep (t : Tbl DirEntry) : Tbl DirEntry :=
  (t.filter fun p => !(p.2.kind == .learned && !p.2.heard)).map fun p => (p.1, { p.2 with heard := false })

/-- Warm restart of the directory (08 R176, 09 R191). -/
def restartDirectory (t : Tbl DirEntry) : Tbl DirEntry :=
  (dropLearned t).map fun p => (p.1, { p.2 with lost := false, failures := 0, watch := false })

end Sys2Proof.Machine
end

