-- ==== Sys2Proof/Machine/Polls.lean ====
section
/-! DEFINITION. The poll sequencer (09 R177-R191) and the flood records (08 R166, R167). -/

namespace Sys2Proof.Machine

/-! ### Outcomes (09 R182-R185) -/

/-- The entry that supervises a station: its enabled poll entry (09 R182). -/
def State.maskOf (s : State) (station : Nat) : Word :=
  match s.enabledPoll station with
  | some (_, p) => p.tab.mask
  | none => 0#16

/-- GOOD-REPLY becomes GOOD or UNMASKED-CONDITION (09 R182). -/
def replyOutcome (mask cond : Word) : PollOutcome := if mask &&& cond = 0#16 then .good else .unmasked

/-- The outcome is recorded with the entry (09 R182). -/
def State.recordOutcome (s : State) (station : Nat) (o : PollOutcome) : State :=
  match s.enabledPoll station with
  | some (n, p) =>
    let good := o = .good ∨ o = .unmasked
    s.setPoll n { p with
      lastOutcome := some (o, s.elapsed)
      lastGood := if good then some (s.clock.day, s.clock.second) else p.lastGood }
  | none => s

/-- A failure outcome: recorded, and charged by the three conditions of 09 R183; a loss is noticed and handed on. -/
def State.pollFailed (s : State) (l : FLine) (station : Nat) (o : PollOutcome) (search : Bool) : State :=
  let t := s.recordOutcome station o
  let charged := (o = .noResponse ∨ o = .format) ∧ (s.enabledPoll station).isSome = true ∧ ¬ (search = true ∧ l ≠ .f3)
  match t.entry station with
  | some e =>
    if charged then
      let n := satAdd 15 e.failures 1
      if e.lost = false ∧ s.yardNow.lostThreshold ≤ n then
        ((t.setEntry station { e with failures := n, lost := true }).notify .stationLost (.station station)
          (.pair n (pollOutcomeCode o))).hand [.stationLost station]
      else t.setEntry station { e with failures := n }
    else t
  | none => t

/-- A reply to a poll: recorded; the failure count is cleared and a lost station found (09 R184). -/
def State.pollGood (s : State) (station : Nat) (cond : Word) : State :=
  let t := s.recordOutcome station (replyOutcome (s.maskOf station) cond)
  match t.entry station with
  | some e =>
    let u := t.setEntry station { e with failures := 0, lost := false }
    if e.lost then u.notify .stationFound (.station station) .absent else u
  | none => t

/-- The conditions newly shown raise one notice each, in bit order (09 R185). -/
def State.noticeConditions (s : State) (station : Nat) (fresh : Word) : State :=
  (List.range 16).foldl (fun acc i =>
    if fresh.getLsbD i then acc.notify .conditionRaised (.station station) (.one i) else acc) s

/-- A condition word against the reported conditions of the station's entry (09 R185). -/
def State.conditions (s : State) (station : Nat) (cond : Word) : State :=
  match s.enabledPoll station with
  | some (n, p) =>
    let shown := cond &&& p.tab.mask
    (s.setPoll n { p with reported := shown }).noticeConditions station (shown &&& ~~~p.reported)
  | none => s

/-- A condition word that comes without a found outcome: that of a lost station is ignored (09 R185). -/
def State.heardConditions (s : State) (station : Nat) (cond : Word) : State :=
  if s.isLost station then s else s.conditions station cond

/-- A search poll whose reply is taken sets the search line of its entry back to F1, while the entry names the station
(09 R181). -/
def State.searchDone (s : State) (q : PartPoll) : State :=
  match s.poll q.entry with
  | some p => if p.tab.station = q.station then s.setPoll q.entry { p with search := .f1 } else s
  | none => s

/-! ### Flood records (08 R166, R167) -/

def State.flood (s : State) (id : Nat) : Option Flood := s.relay.floods.find? (·.id == id)

/-- A record whose last copy has ended is removed (08 R167). -/
def State.setFlood (s : State) (f : Flood) : State :=
  let rest := s.relay.floods.filter (·.id != f.id)
  { s with relay := { s.relay with floods := if f.copies.isEmpty then rest else rest ++ [f] } }

/-- A copy of a flood has replied: the copies still in Q1 of the other lines are removed (08 R167). -/
def State.floodReply (s : State) (f : Flood) (l : FLine) : State :=
  let queued := f.copies.filter fun k => k != l && (s.line k).q1.any (·.flood == some f.id)
  let t := queued.foldl (fun acc k => acc.modLine k (dropCopies f.id)) s
  t.setFlood { f with replied := true, copies := f.copies.filter fun k => k != l && !queued.contains k }

/-! ### Check polls (09 R187) -/

def isPollTo (station : Nat) (e : Exchange) : Bool :=
  e.station == station && (match e.what with
    | .poll _ => true
    | .copy c => !c.tel.order
    | _ => false)

/-- The class and retries of a poll to a station (07 R145). -/
def State.pollClass (s : State) (station : Nat) : Nat × Nat :=
  match s.enabledPoll station with
  | some (_, p) => (p.tab.cls, p.tab.retries)
  | none => (3, 1)

/-- The check poll of a station, as it is placed (09 R177, R187). -/
def State.askedPoll (s : State) (station : Nat) : PartPoll :=
  let p := s.enabledPoll station
  { station := station, cls := (s.pollClass station).1, retries := (s.pollClass station).2, check := true, search := false,
    copy := (match p with
      | some (_, q) => q.tab.copy
      | none => false),
    asked := true,
    entry := (match p with
      | some (n, _) => n
      | none => 0) }

/-- A poll of the station awaits nobody's check any more. -/
def unasked (station : Nat) (p : PartPoll) : PartPoll := if p.station = station then { p with asked := false } else p

def unaskedOut (station : Nat) : Outgoing → Outgoing
  | .poll p => .poll (unasked station p)
  | o => o

/-- What is left on a line of a check asked for by an order of the station that has ended judges no later order (02 R41). -/
def forgetCheck (station : Nat) (u : LineUnit) : LineUnit :=
  { u with
    q2 := u.q2.map (unasked station)
    selected := u.selected.map (unaskedOut station)
    sending := u.sending.map fun p => (unaskedOut station p.1, p.2)
    exch := u.exch.map fun e => if e.station = station then { e with check := false } else e }

def State.forgetChecks (s : State) (station : Nat) : State := allLines.foldl (fun acc l => acc.modLine l (forgetCheck station)) s

/-- The order unit asks for a check poll of a valve's station (09 R187). -/
def State.askCheck (s0 : State) (v : Nat) : State :=
  let station := s0.valveStation v
  let s := s0.forgetChecks station
  match s.stationLine station with
  | none => s.hand [.judge v none]
  | some l =>
    let u := s.line l
    match u.exch with
    | some e =>
      if isPollTo station e then s.setLine l { u with exch := some { e with check := true } }
      else s.place l (placeCheck (s.askedPoll station))
    | none => s.place l (placeCheck (s.askedPoll station))

/-! ### The cycle (09 R179-R181) -/

/-- Step 1 of 09 R179 on one line: the cycle polls standing are removed and counted; says how many. -/
def clearCycle (u : LineUnit) : LineUnit × Nat :=
  let k := (u.q2.filter (!·.check)).length
  (countOverrun k { u with q2 := u.q2.filter (·.check) }, k)

def State.clearCycles (s : State) : State × Nat :=
  allLines.foldl (fun acc l =>
    let r := clearCycle (acc.1.line l)
    (acc.1.setLine l r.1, acc.2 + r.2)) (s, 0)

/-- An entry is due at a cycle (09 R180). -/
def pollDue (cycle : Nat) (p : PollPos) : Bool := pollEnabled p && cycle % p.tab.nth == 0

/-- The poll of one due entry is offered (09 R180, R181). -/
def State.offerCycle (s : State) (n : Nat) : State :=
  match s.poll n with
  | none => s
  | some p =>
    if pollDue s.cycle.number p then
      let located := s.stationLine p.tab.station
      let l := located.getD p.search
      let r := offerPoll ⟨p.tab.station, p.tab.cls, p.tab.retries, false, located.isNone, p.tab.copy, false, n⟩ (s.line l)
      let t := s.setLine l (wakeUnit r.1)
      if r.2 then
        t.setPoll n { p with
          lastCycle := some s.cycle.number
          search := if located.isNone then nextLine p.search else p.search }
      else t
    else s

/-- 09 R179, the four steps; the timer's next period is the one the yard record holds now. -/
def State.cycleSteps (s : State) : State :=
  let r := s.clearCycles
  let number := (s.cycle.number + 1) % 65536
  let t := if r.2 = 0 then r.1 else r.1.notify .cycleOverrun (.cycle number) (.one r.2)
  let period := s.yardNow.cyclePeriod
  let u := { t with cycle := { number := number, due := t.cycle.due + period, period := period, expiries := t.cycle.expiries + 1 } }
  (s.polls.map (·.1)).foldl State.offerCycle u

/-! ### RUN's examination (09 R188) -/

/-- The BOUND stations that no enabled poll entry names. -/
def State.unpolled (s : State) : List Nat :=
  (s.dir.filter fun p => p.2.kind == .bound && (s.enabledPoll p.1).isNone).map (·.1)

end Sys2Proof.Machine
end

