-- ==== Sys2Proof/Machine/Orders.lean ====
section
/-! DEFINITION. The order unit (02 R29-R50, R53, 01 R22-R24): claims, exchange outcomes, travel, the desk gate, parking. -/

namespace Sys2Proof.Machine

/-! ### The valve record -/

def State.setValveState (s : State) (v : Nat) (st : VState) : State :=
  match s.valve v with
  | some x => s.setValve v { x with state := st }
  | none => s

def State.setLocal (s : State) (v : Nat) (b : Bool) : State :=
  match s.valve v with
  | some x => s.setValve v { x with localHand := b }
  | none => s

/-- The hand-off of a valve's state (02 R33): `changed` says whether it differs from the one held before. -/
def State.valveTold (s : State) (v : Nat) (byReport : Bool) (before : Option VState) : Handoff :=
  .valveTold v byReport (s.valveState v != before)

/-! ### Parked orders (01 R22-R24) -/

/-- The parked order of a holder is answered and its slot emptied; `owed` as `answerRoom` reads it. -/
def State.answerParked (s : State) (h : Nat) (r : Result) (owed : Bool := false) : State :=
  match s.holder h with
  | none => s
  | some x =>
    match x.rt.park with
    | none => s
    | some p =>
      (s.modHolder h fun rt => { rt with park := none }).answerOrder p.tag r none owed

/-- The order to the valve that the holder has parked. -/
def parkedFor (v : Nat) (x : Holder) : Option DeskRef :=
  match x.rt.park with
  | some q => if q.valve = v then some q.tag else none
  | none => none

/-- An order parked for the valve leaves its park slot, and its timer stops. -/
def unparked (v : Nat) (x : Holder) : Holder :=
  if (parkedFor v x).isSome then { x with rt := { x.rt with park := none } } else x

/-- A SHUT claim that reaches a valve answers every order parked for it SUPERSEDED and empties their slots (01 R22): more holders than
one have such an order where a record write gave the valve to another holder (log entry 75), and they are answered in the order of the
holders (the model's choice, log entry 121). -/
def State.supersedeParked (s : State) (v : Nat) (owed : Bool := false) : State :=
  let t : State := { s with holders := s.holders.map fun p => (p.1, unparked v p.2) }
  t.answerEach .superseded (s.holders.filterMap fun p => parkedFor v p.2) owed

/-! ### Claims (02 R30, R40, R43, R49) -/

/-- A slot newly QUEUED with an order (02 R30). -/
def queuedSlot (code : OrderCode) (arg : Nat) (origin : Origin) (tag : Option DeskRef) (now : Nat) : Slot :=
  { state := .queued, code := code, arg := arg, origin := origin, tag := tag, issued := now, deadline := none,
    checkPending := false, followUp := none, reversal := false }

/-- A claim on a FREE slot (02 R30): queued on the station's line, or, the station being UNLOCATED, ended without a reply.
Returns what is to be handed on. -/
def State.takeFree (s : State) (t : Target) (code : OrderCode) (arg : Nat) (origin : Origin) (tag : Option DeskRef) :
    State × List Handoff :=
  let u := s.setSlot t (queuedSlot code arg origin tag s.elapsed)
  match s.stationLine (s.targetStation t) with
  | some l => (u.place l (placeQ0 (.slot t (s.targetStation t))), [])
  | none => (u, [.orderEnded t .noReply])

/-- A slot is freed and its follow-up promoted as a new claim (02 R38). Returns what is to be handed on. The promotion answers no
order parked for the valve meanwhile: whether it is a SHUT claim that reaches the valve (01 R22) is not said (the model's choice,
log entry 57). -/
def State.freeSlot (s : State) (t : Target) (sl : Slot) : State × List Handoff :=
  let u := s.setSlot t Slot.free
  match sl.followUp with
  | some f => u.takeFree t (match t with
      | .booster _ => .stop
      | _ => .shut) 0 f.origin f.tag
  | none => (u, [])

/-- The outcome of the order a slot holds (02 R37). -/
def slotOutcome (t : Target) (sl : Slot) (o : SlotOutcome) : Handoff := .outcome t sl.code sl.origin sl.tag o

/-- The follow-up of a slot is superseded (02 R38). -/
def followUpOutcome (t : Target) (sl : Slot) : List Handoff :=
  match sl.followUp with
  | some f => [.outcome t (match t with
      | .booster _ => .stop
      | _ => .shut) f.origin f.tag .superseded]
  | none => []

/-- The SHUTTING of a reversed valve (02 R40); a booster has no valve state. -/
def State.markShutting (s : State) : Target → State × List Handoff
  | .valve v =>
    let u := s.setValveState v .shutting
    (u, [u.valveTold v false (s.valveState v)])
  | _ => (s, [])

/-- A reversal (02 R40): the opening order is superseded, the shut order takes the slot and goes to the head of Q0. -/
def State.reverse (s : State) (t : Target) (sl : Slot) (code : OrderCode) (origin : Origin) (tag : Option DeskRef) : State :=
  let u := s.setSlot t { queuedSlot code 0 origin tag s.elapsed with reversal := true }
  let m := u.markShutting t
  let after := slotOutcome t sl .superseded :: m.2
  match s.stationLine (s.targetStation t) with
  | some l => (m.1.place l (placeQ0Head (.slot t (s.targetStation t)))).hand after
  | none => m.1.hand (after ++ [.orderEnded t .noReply])

/-- A shut claim on a slot that is not FREE (02 Table 2.5). -/
def State.claimShut (s : State) (t : Target) (sl : Slot) (code : OrderCode) (origin : Origin) (tag : Option DeskRef) : State :=
  if isShutCode sl.code then
    match deskOf origin tag with
    | some g => s.answerOrder g .done none
    | none => s
  else match sl.state with
    | .queued => (s.setSlot t (queuedSlot code 0 origin tag s.elapsed)).hand [slotOutcome t sl .superseded]
    | .travel => s.reverse t sl code origin tag
    | _ => (s.setSlot t { sl with followUp := some ⟨origin, tag⟩ }).hand (followUpOutcome t sl)

/-- A claim decided by its slot (02 R30, R43, R49). A BUSY is the part's own initiative where the claim is a parked order's. -/
def State.claimSlot (s : State) (t : Target) (code : OrderCode) (arg : Nat) (origin : Origin) (tag : Option DeskRef)
    (owed : Bool := false) : State :=
  match s.slot t with
  | none => (s.notify .orderFailed (targetSubject t) (orderDetail code origin tag)).hand [.outcome t code origin tag .refused]
  | some sl =>
    if slotFree sl then
      let r := s.takeFree t code arg origin tag
      r.1.hand r.2
    else if isShutCode code then s.claimShut t sl code origin tag
    else match deskOf origin tag with
      | some g => s.answerOrder g .busy none owed
      | none => s

/-- A claim on a slot (02 R30, R43, R49). A SHUT claim that reaches the valve of parked orders answers those orders as well (01 R22),
after the DONE of a desk SHUT that joins, which is its telegram's immediate ANSWER (07 R150; log entry 110). -/
def State.claim (s : State) (t : Target) (code : OrderCode) (arg : Nat) (origin : Origin) (tag : Option DeskRef)
    (owed : Bool := false) : State :=
  let u := s.claimSlot t code arg origin tag owed
  match t, code with
  | .valve v, .shut => u.supersedeParked v owed
  | _, _ => u

/-! ### Ends of orders (02 R35, R36, R39, R42, R49, R50) -/

/-- The slot is freed, the valve left in `st`, and the outcome, a fault cause found and the valve state handed on (02 R37). -/
def State.endValveOrder (s : State) (v : Nat) (sl : Slot) (st : Option VState) (o : SlotOutcome) (byReport : Bool)
    (cause : List Handoff := []) : State :=
  let before := s.valveState v
  let u := match st with
    | some x => s.setValveState v x
    | none => s
  let f := u.freeSlot (.valve v) sl
  f.1.hand ([slotOutcome (.valve v) sl o] ++ f.2 ++ cause
    ++ (if byReport = true ∨ f.1.valveState v ≠ before then [f.1.valveTold v byReport before] else []))

/-- What a failed or refused order leaves of the valve state: a reversal SHUT leaves UNKNOWN (02 R35, R36). -/
def afterRefusal (sl : Slot) : Option VState := if sl.reversal then some .unknown else none

/-- The end an order asks for. -/
def askedEnd : OrderCode → Option VState
  | .opn => some .opened
  | .shut => some .shut
  | _ => none

/-- HALT leaves UNKNOWN and HALTED as HALTED and keeps any other state (02 Table 2.4). -/
def afterHalt : Option VState → Option VState
  | some .unknown | some .halted => some .halted
  | _ => none

/-- The valve travels (02 Table 2.4, ACCEPTED). -/
def State.startTravel (s : State) (v : Nat) (sl : Slot) (st : VState) : State :=
  match s.valve v with
  | none => s
  | some x =>
    let u := s.setValve v { x with
      state := st
      slot := { sl with state := .travel, deadline := some (s.elapsed + travelAllowance x), checkPending := false } }
    u.hand [slotOutcome (.valve v) sl .accepted, u.valveTold v false (s.valveState v)]

/-- The exchange of a valve order has ended (02 R35, R36, R38). -/
def State.valveOrderEnded (s : State) (v : Nat) (sl : Slot) (e : OrderEnd) : State :=
  let failed := s.notify .orderFailed (.valve v) (orderDetail sl.code sl.origin sl.tag)
  match e with
  | .ack .accepted =>
    match sl.code with
    | .opn =>
      match sl.followUp with
      | some f => s.reverse (.valve v) sl .shut f.origin f.tag
      | none => s.startTravel v sl .opening
    | .shut => s.startTravel v sl .shutting
    | _ => s.endValveOrder v sl (afterHalt (s.valveState v)) .done false
  | .ack .done =>
    match askedEnd sl.code with
    | some st => s.endValveOrder v sl (some st) .done false
    | none => s.endValveOrder v sl (afterHalt (s.valveState v)) .done false
  | .ack .refusedLocal =>
    ((s.setLocal v true).notify .valveLocal (.valve v) (orderDetail sl.code sl.origin sl.tag)).endValveOrder v sl
      (afterRefusal sl) .refused false
  | .ack _ => failed.endValveOrder v sl (afterRefusal sl) .refused false
  | .noReply => failed.endValveOrder v sl (afterRefusal sl) .noReply false

/-- The exchange of a governor order has ended (02 R49). -/
def State.governorOrderEnded (s : State) (d : Nat) (sl : Slot) (e : OrderEnd) : State :=
  let u := s.setSlot (.governor d) Slot.free
  match e with
  | .ack .accepted | .ack .done => u.hand [slotOutcome (.governor d) sl .done]
  | _ => (u.notify .orderFailed (.district d) (orderDetail sl.code sl.origin sl.tag)).hand [slotOutcome (.governor d) sl .refused]

/-- A booster order ends with its slot freed (02 R50). -/
def State.endBoosterOrder (s : State) (b : Nat) (sl : Slot) (o : SlotOutcome) : State :=
  let f := s.freeSlot (.booster b) sl
  f.1.hand (slotOutcome (.booster b) sl o :: f.2)

/-- A booster order ends failed: ORDER FAILED is raised (02 R50). -/
def State.failBoosterOrder (s : State) (b : Nat) (sl : Slot) (o : SlotOutcome) : State :=
  (s.notify .orderFailed (.booster b) (orderDetail sl.code sl.origin sl.tag)).endBoosterOrder b sl o

/-- The exchange of a booster order has ended (02 R50, R38). -/
def State.boosterOrderEnded (s : State) (b : Nat) (sl : Slot) (e : OrderEnd) : State :=
  match e with
  | .ack .accepted =>
    match sl.code, sl.followUp with
    | .start, some f => s.reverse (.booster b) sl .stop f.origin f.tag
    | _, _ =>
      match s.booster b with
      | none => s
      | some x => (s.setBooster b { x with
          slot := { sl with state := .travel, deadline := some (s.elapsed + boosterAllowance x), checkPending := false } }).hand
            [slotOutcome (.booster b) sl .accepted]
  | .ack .done => s.endBoosterOrder b sl .done
  | .ack _ => s.failBoosterOrder b sl .refused
  | .noReply => s.failBoosterOrder b sl .noReply

/-- The exchange of a slot's order has ended. -/
def State.orderEnded (s : State) (t : Target) (e : OrderEnd) : State :=
  match s.slot t with
  | none => s
  | some sl =>
    if slotFree sl then s
    else match t with
      | .valve v => s.valveOrderEnded v sl e
      | .governor d => s.governorOrderEnded d sl e
      | .booster b => s.boosterOrderEnded b sl e

/-! ### Reports of a valve's station (02 R33, R34, R39) -/

def positionEnd : Position → Option VState
  | .shut => some .shut
  | .opened => some .opened
  | _ => none

/-- 02 Table 2.3. -/
def reportedState (held : VState) (p : Position) : VState :=
  match positionEnd p with
  | some st => st
  | none => if held = .stuck then .stuck else .halted

/-- The position asked for ends the travel; any other leaves it (02 R39). -/
def State.travelReport (s : State) (v : Nat) (sl : Slot) (p : Position) : State :=
  match positionEnd p with
  | some st => if askedEnd sl.code = some st then s.endValveOrder v sl (some st) .done true else s
  | none => s

/-- A usable position (02 R33). -/
def State.valvePosition (s : State) (v : Nat) (p : Position) : State :=
  match s.valve v with
  | none => s
  | some x =>
    if x.slot.state = .travel then s.travelReport v x.slot p
    else
      let st := reportedState x.state p
      let u := s.setValveState v st
      let w := if st ≠ x.state ∧ x.state ≠ .unknown then u.notify .valveMoved (.valve v) (.one (vStateCode st)) else u
      w.hand [w.valveTold v true (some x.state)]

/-- A REPORT or ALERT of a valve's station (02 R33, R34). -/
def State.valveReport (s : State) (v : Nat) (body : List Word) : State :=
  let u := s.setLocal v (condLocal (condWord body))
  match valveSample body with
  | some p => u.valvePosition v p
  | none => u

/-- The condition word of an ORDER-ACK of a valve's station (02 R34; log entry 25). -/
def State.valveAckWord (s : State) (v : Nat) (body : List Word) : State :=
  let hand := match body with
    | _ :: r :: _ => r.toNat == 3
    | _ => false
  s.setLocal v (condLocal (condWord body) || hand)

/-! ### Allowance, check and judgement (02 R41, R42) -/

/-- A valve judged STUCK or UNKNOWN at its check (02 R42). -/
def State.judgeValve (s : State) (v : Nat) (sl : Slot) (stuck : Bool) : State :=
  let st := if stuck then VState.stuck else .unknown
  let cause := match s.valveHolder v with
    | some h => [Handoff.addCause h (if stuck then .stuck v else .unknown v)]
    | none => []
  (s.endValveOrder v { sl with checkPending := false } (some st) (if stuck then .stuck else .unknown) false cause).notify
    (if stuck then .valveStuck else .valveUnknown) (.valve v) (.one (orderCodeNum sl.code))

/-- The result of a check poll (02 R41): acted on while check pending is set, for the order that asked (`askCheck`). -/
def State.judgeCheck (s : State) (v : Nat) (r : CheckResult) : State :=
  match s.slot (.valve v) with
  | none => s
  | some sl =>
    if sl.state = .travel ∧ sl.checkPending = true then
      match r with
      | none => s.judgeValve v sl false
      | some p =>
        if positionEnd p ≠ none ∧ positionEnd p = askedEnd sl.code then s.endValveOrder v sl (askedEnd sl.code) .done true
        else s.judgeValve v sl true
    else s

/-- The travel allowance has expired (02 R41). -/
def State.allowanceExpired (s : State) (v : Nat) (sl : Slot) : State :=
  let w := { sl with checkPending := true }
  let u := s.setSlot (.valve v) w
  if s.isLost (s.valveStation v) then u.judgeValve v w false else u.askCheck v

/-! ### The top guard (02 R44) -/

/-- The examination of an inlet slot as its holder enters TOP. Its own SHUT leaves a parked order to the regate (the model's choice,
log entry 74). -/
def State.topGuard (s : State) (h : Nat) : State :=
  match s.holder h with
  | none => s
  | some x =>
    let t := Target.valve x.tab.inlet
    match s.slot t with
    | none => s
    | some sl =>
      if sl.code = .opn then
        match sl.state with
        | .queued => ((s.setSlot t Slot.free).withdrawOrder t).hand [slotOutcome t sl .superseded]
        | .sent => if sl.followUp = none then s.setSlot t { sl with followUp := some ⟨.autoTop, none⟩ } else s
        | .travel => s.reverse t sl .shut .autoTop none
        | .free => s
      else s

/-! ### The desk gate (02 R45, R46, Table 2.7) -/

/-- A holder state that refuses an OPEN or HALT to the inlet. -/
def inletReason : HState → Option Reason
  | .top => some .top
  | .fault => some .fault
  | .out => some .out
  | .blind => some .blind
  | _ => none

/-- A holder state that refuses an OPEN or HALT to the outlet. -/
def outletReason : HState → Option Reason
  | .grounded => some .grounded
  | .fault => some .fault
  | .out => some .out
  | .blind => some .blind
  | _ => none

def State.holderState (s : State) (h : Nat) : HState :=
  match s.holder h with
  | some x => x.rt.state
  | none => .out

/-- The rows of OPEN or HALT of 02 Table 2.7 that name a holder. -/
def State.holderRows (s : State) (v : Nat) : Option Reason :=
  match s.inletHolder v with
  | some h => match inletReason (s.holderState h) with
    | some r => some r
    | none => if s.fill.running then some .rotaOwns else none
  | none => match s.outletHolder v with
    | some h => match outletReason (s.holderState h) with
      | some r => some r
      | none => if s.drawMode = .auto then some .drawOwns else none
    | none => none

/-- The rows of OPEN or HALT of 02 Table 2.7. -/
def State.gateRows (s : State) (v : Nat) : Option Reason :=
  match s.holderRows v with
  | some r => some r
  | none => match s.valve v with
    | some x => if x.localHand then some .localHand else none
    | none => none

/-- The desk gate of an OPEN or HALT to a valve: the reason it is refused for, or none (02 R45). -/
def State.gate (s : State) (v : Nat) : Option Reason :=
  if (s.stationLine (s.valveStation v)).isNone then some .unknownStation else s.gateRows v

/-- The gate as it meets a parked order (01 R23): the holder's new state and the modes come first, as R23 gives; an order that they pass
is still refused while its valve's station is UNLOCATED (the model's choice, log entry 99). -/
def State.gateAgain (s : State) (v : Nat) : Option Reason :=
  match s.gateRows v with
  | some r => some r
  | none => s.gate v

/-- A desk order refused, with its reason (02 R47). -/
def State.refuseOrder (s : State) (tag : DeskRef) (r : Reason) (owed : Bool := false) : State :=
  s.answerOrder tag .refused (some r) owed

/-- A gated desk OPEN or HALT is parked while its holder is in CUP, or goes to the slot (01 R22). -/
def State.parkOrClaim (s : State) (v : Nat) (code : OrderCode) (tag : DeskRef) : State :=
  match s.valveHolder v with
  | none => s.hand [.claim (.valve v) code 0 .desk (some tag)]
  | some h =>
    match s.holder h with
    | none => s
    | some x =>
      if x.rt.state = .cup then
        match x.rt.park with
        | some _ => s.answerOrder tag .busy none
        | none => s.modHolder h fun rt => { rt with park := some ⟨v, code, 0, tag, s.elapsed + s.yardNow.park⟩ }
      else s.hand [.claim (.valve v) code 0 .desk (some tag)]

/-- A desk SHUT sets the bar of the side that an automatic job owns (02 R45); a bar newly set is handed on after the claim. -/
def State.shutBars (s : State) (v : Nat) : State × List Handoff :=
  match s.inletHolder v with
  | some h =>
    if s.fill.running then
      (s.modHolder h fun rt => { rt with fillBar := true },
        match s.holder h with
        | some x => if x.rt.fillBar then [] else [.fillBar h true]
        | none => [])
    else (s, [])
  | none => match s.outletHolder v with
    | some h =>
      if s.drawMode = .auto then
        (s.modHolder h fun rt => { rt with drawBar := true },
          match s.holder h with
          | some x => if x.rt.drawBar then [] else [.drawBar h true]
          | none => [])
      else (s, [])
    | none => (s, [])

/-- A desk order to a valve (02 R45). -/
def State.deskValveOrder (s : State) (v : Nat) (code : OrderCode) (tag : DeskRef) : State :=
  match code with
  | .shut =>
    if (s.stationLine tag.dest).isNone then s.refuseOrder tag .unknownStation
    else
      let b := s.shutBars v
      b.1.hand (.claim (.valve v) .shut 0 .desk (some tag) :: b.2)
  | _ => match s.gate v with
    | some r => s.refuseOrder tag r
    | none => s.parkOrClaim v code tag

/-- A holder has left CUP: its parked order, where no shut claim has answered it, is put to the gate again (01 R23). -/
def State.regate (s : State) (h : Nat) (owed : Bool := false) : State :=
  match s.holder h with
  | none => s
  | some x =>
    match x.rt.park with
    | none => s
    | some p =>
      let t := s.modHolder h fun rt => { rt with park := none }
      match t.gateAgain p.valve with
      | some r => t.refuseOrder p.tag r owed
      | none => t.hand [.claim (.valve p.valve) p.code p.arg .desk (some p.tag)]

/-- A desk order to a governor (02 R46). -/
def State.deskGovernorOrder (s : State) (d : Nat) (code : OrderCode) (tag : DeskRef) : State :=
  match s.district d with
  | none => s
  | some x =>
    if x.tab.auto then s.refuseOrder tag .districtAuto
    else s.hand [.claim (.governor d) code 0 .desk (some tag)]

/-- The order codes admitted for a role (02 R45). -/
def orderAdmitted (b : Binding) (c : OrderCode) : Bool :=
  match b, c with
  | .valve _, .opn | .valve _, .shut | .valve _, .halt => true
  | .governor _, .raise | .governor _, .lower => true
  | .booster _, .start | .booster _, .stop => true
  | _, _ => false

/-! ### Removal and warm restart (02 R29, R53) -/

/-- A slot ceases: the order and the follow-up it holds are superseded (02 R29). -/
def State.supersedeSlot (s : State) (t : Target) : State :=
  match s.slot t with
  | none => s
  | some sl =>
    if slotFree sl then s
    else (s.withdrawOrder t).hand (slotOutcome t sl .superseded :: followUpOutcome t sl)

/-- The desk orders of a slot, its order before its follow-up (07 R157). -/
def deskOrders (sl : Slot) : List DeskRef :=
  (if slotFree sl then [] else (deskOf sl.origin sl.tag).toList)
  ++ (match sl.followUp with
    | some f => (deskOf f.origin f.tag).toList
    | none => [])

/-- The orders to which a warm restart owes a SUPERSEDED answer, in the order of 07 R157 step 6. -/
def State.restartAnswers (s : State) : List DeskRef :=
  (s.valves.flatMap fun p => deskOrders p.2.slot) ++ (s.districts.flatMap fun p => deskOrders p.2.slot)
  ++ (s.boosters.flatMap fun p => deskOrders p.2.slot)

/-- OPENING and SHUTTING become UNKNOWN (02 R53). -/
def restartVState : VState → VState
  | .opening | .shutting => .unknown
  | st => st

/-- Every slot becomes FREE (02 R53). -/
def State.restartOrders (s : State) : State :=
  { s with
    valves := s.valves.map fun p => (p.1, { p.2 with slot := Slot.free, state := restartVState p.2.state })
    districts := s.districts.map fun p => (p.1, { p.2 with slot := Slot.free })
    boosters := s.boosters.map fun p => (p.1, { p.2 with slot := Slot.free })
    relay := { s.relay with allowance := 0 } }

end Sys2Proof.Machine
end

