-- ==== Sys2Proof/Machine/Holders.lean ====
section
/-! DEFINITION. The holder unit (01 R1-R21, R27, R28): geometry, samples, states, fault causes, safety shuts, blind grace. -/

namespace Sys2Proof.Machine

/-! ### Geometry (01 R1, R2, R5, R6, R10) -/

/-- The lifts in use, innermost first. -/
def liftsOf (r : HolderRec) : List Lift := [r.lift1, r.lift2, r.lift3, r.lift4].take r.lifts

/-- B_0 to B_L: the height of each junction (00 0.6.5). -/
def junctionsFrom (base : Nat) : List Lift → List Nat
  | [] => [base]
  | l :: ls => base :: junctionsFrom (base + l.stroke) ls

/-- B_1 to B_L. -/
def junctions (r : HolderRec) : List Nat := (junctionsFrom 0 (liftsOf r)).drop 1

/-- B_L. -/
def topOf (r : HolderRec) : Nat := (junctions r).getLastD 0

/-- B_1 to B_(L-1): where a lift picks up the next. -/
def cups (r : HolderRec) : List Nat := (junctions r).dropLast

/-- The sum of c_k times the part of h within lift k, in litres (01 R6). -/
def volumeFrom (base h : Nat) : List Lift → Nat
  | [] => 0
  | l :: ls => l.capacity * min (h - base) l.stroke + volumeFrom (base + l.stroke) h ls

/-- The stock at a height (01 R6). -/
def stockAt (r : HolderRec) (h : Nat) : Nat := volumeFrom 0 h (liftsOf r) / 1000

/-- Lifts afloat at a height not GROUNDED (01 R5). -/
def liftsAfloat (r : HolderRec) (h : Nat) : Nat := 1 + ((cups r).filter fun b => decide (b + r.cupBand ≤ h)).length

/-- p_1 to p_n summed (01 R5). -/
def pressureOf (r : HolderRec) (n : Nat) : Nat := ((liftsOf r).take n).foldl (fun acc l => acc + l.step) 0

/-- The cup zone a height lies in (01 Table 1.4, row 3). -/
def cupZone (r : HolderRec) (h : Nat) : Option Nat :=
  ((List.range (cups r).length).find? fun i =>
    let b := (cups r).getD i 0
    decide (b ≤ h + r.cupBand ∧ h < b + r.cupBand)).map (· + 1)

/-- The sighted state of a height, with the cup index, after the sighted state held (01 Table 1.4). -/
def sightedAt (r : HolderRec) (held : Option Sighted) (h : Nat) : Sighted × Nat :=
  if h < r.margin then (.grounded, 0)
  else if h < r.reserve then (.low, 0)
  else match cupZone r h with
    | some k => (.cup, k)
    | none =>
      if h < r.highWarning then (.working, 0)
      else if held ≠ some .top ∧ h < r.topLimit then (.high, 0)
      else if held = some .top ∧ h + r.topHyst < r.topLimit then (.high, 0)
      else (.top, 0)

/-- The fast-rise limit in force (01 R1). -/
def fastLimit (r : HolderRec) : Nat :=
  if r.fastRise = 0 then
    match r.construction with
    | .column => 1500
    | .spiral => 600
  else r.fastRise

/-- What the check of an entry's words finds: the word first wrong, or a relation between words (10 R193). -/
inductive EntryCheck | ok | word (i : Nat) | relation
  deriving DecidableEq, Repr

/-- The first word whose test fails. -/
def firstWrong : List (Nat × Bool) → Option Nat
  | [] => none
  | (i, b) :: r => if b then firstWrong r else some i

def inRange (a b n : Nat) : Bool := decide (a ≤ n ∧ n ≤ b)

def checkEntry (tests : List (Nat × Bool)) (relation : Bool) : EntryCheck :=
  match firstWrong tests with
  | some i => .word i
  | none => if relation then .ok else .relation

/-- The per-lift words are checked for the lifts in use only (01 R1). -/
def liftTests (r : HolderRec) : List (Nat × Bool) :=
  ((List.range 4).map fun i => (4 + i, match (liftsOf r)[i]? with
    | some l => inRange 1000 12000 l.stroke
    | none => true))
  ++ ((List.range 4).map fun i => (8 + i, match (liftsOf r)[i]? with
    | some l => inRange 1 9999 l.capacity
    | none => true))
  ++ ((List.range 4).map fun i => (12 + i, match (liftsOf r)[i]? with
    | some l => inRange 10 200 l.step
    | none => true))

/-- The relations of 01 R2 step 1. -/
def holderRelations (r : HolderRec) : Bool :=
  decide (topOf r ≤ Config.heightMax ∧ r.margin < r.reserve ∧ r.reserve < r.highWarning ∧ r.highWarning < r.topLimit
    ∧ r.topLimit ≤ topOf r ∧ r.highWarning + r.topHyst ≤ r.topLimit)
  && (cups r).all fun b => decide (r.reserve + r.cupBand < b ∧ b + r.cupBand < r.highWarning)

/-- 01 R2 step 1. -/
def checkHolder (r : HolderRec) : EntryCheck :=
  checkEntry
    ([(2, r.fastRise == 0 || inRange 100 3000 r.fastRise), (3, inRange 1 4 r.lifts)] ++ liftTests r
      ++ [(16, inRange 50 1000 r.margin), (20, inRange 50 500 r.topHyst), (21, inRange 20 500 r.cupBand),
          (22, inRange 1 60 r.blindGrace), (23, inRange 1 199 r.gauge), (24, inRange 1 8 r.inlet), (25, inRange 1 8 r.outlet)])
    (holderRelations r)

/-- 01 R2 step 2. -/
def State.holderValveConflict (s : State) (n : Nat) (r : HolderRec) : Bool :=
  r.inlet == r.outlet || s.holders.any fun p =>
    p.1 != n && (p.2.tab.inlet == r.inlet || p.2.tab.inlet == r.outlet || p.2.tab.outlet == r.inlet || p.2.tab.outlet == r.outlet)

/-! ### Runtime values (01 R27) -/

def Causes.empty : Causes := ⟨[], [], false, false⟩

def Causes.isEmpty (c : Causes) : Bool := c.stuck.isEmpty && c.unknown.isEmpty && !c.gauge && !c.record

def Causes.has (c : Causes) : Cause → Bool
  | .stuck v => c.stuck.contains v
  | .unknown v => c.unknown.contains v
  | .gauge => c.gauge
  | .record => c.record

def Causes.add (c : Causes) : Cause → Causes
  | .stuck v => { c with stuck := setInsert v c.stuck }
  | .unknown v => { c with unknown := setInsert v c.unknown }
  | .gauge => { c with gauge := true }
  | .record => { c with record := true }

/-- A cause names the valve (01 R18). -/
def Causes.names (c : Causes) (v : Nat) : Bool := c.stuck.contains v || c.unknown.contains v

/-- 01 R27. -/
def HolderRt.initial (r : HolderRec) : HolderRt :=
  { state := .out, sighted := none, cupIndex := 0, height := none, lifts := 0, pressure := 0, stock := 0,
    reserveStock := stockAt r r.reserve, rate := 0, stale := false, rateBase := none, motion := .still, windowMark := none,
    stillCount := 0, sampled := false, longStill := false, fast := false, fillBar := false, drawBar := false, latch := false,
    causes := Causes.empty, graceDue := none, blindShutDue := false, noticed := ⟨false, false, false, false⟩, park := none }

/-! ### Deriving the state (01 R11) -/

def sightedState : Sighted → HState
  | .grounded => .grounded
  | .low => .low
  | .working => .working
  | .cup => .cup
  | .high => .high
  | .top => .top

/-- The five lines of 01 R11. -/
def State.derivedState (s : State) (x : Holder) : HState :=
  if !x.tab.inService then .out
  else if x.rt.latch then .fault
  else match x.rt.sighted with
    | none => .out
    | some g => if s.isLost x.tab.gauge then .blind else sightedState g

def isShutOrShutting : Option VState → Bool
  | some .shut | some .shutting => true
  | _ => false

def isOpenOrOpening : Option VState → Bool
  | some .opened | some .opening => true
  | _ => false

/-- Safety shuts act in RUN and HOLD (01 section 1.5). -/
def State.acting (s : State) : Bool := s.runState != .standby

/-- The safety shut that a holder's state calls for: the valve, its origin (01 R16-R18, R19). -/
def safetyShut (x : Holder) (st : HState) : Option (Nat × Origin) :=
  match st with
  | .top => some (x.tab.inlet, .autoTop)
  | .grounded => some (x.tab.outlet, .autoGround)
  | .fault => if x.rt.causes.names x.tab.inlet then none else some (x.tab.inlet, .autoFault)
  | .blind => if x.rt.blindShutDue then some (x.tab.inlet, .autoBlind) else none
  | _ => none

def noticedFor (n : Noticed) : Origin → Bool
  | .autoTop => n.top
  | .autoGround => n.grounded
  | .autoFault => n.fault
  | .autoBlind => n.blind
  | _ => true

def setNoticed (n : Noticed) : Origin → Noticed
  | .autoTop => { n with top := true }
  | .autoGround => { n with grounded := true }
  | .autoFault => { n with fault := true }
  | .autoBlind => { n with blind := true }
  | _ => n

/-- A safety shut is claimed; SAFETY SHUT is raised at the first claim of an entry into the condition (01 R16-R19). -/
def State.claimSafety (s : State) (h : Nat) (x : Holder) (v : Nat) (o : Origin) : State :=
  let t := if noticedFor x.rt.noticed o then s
    else (s.modHolder h fun rt => { rt with noticed := setNoticed rt.noticed o }).notify .safetyShut (.valve v) (.one (originCode o))
  t.hand [.claim (.valve v) .shut 0 o none]

/-- The safety shut flags that stay set in a state. -/
def keepNoticed (n : Noticed) (st : HState) : Noticed :=
  { top := n.top && st == .top, grounded := n.grounded && st == .grounded, fault := n.fault && st == .fault,
    blind := n.blind && st == .blind }

/-- What the blind grace of a holder becomes on entering a state (01 R20, R21). -/
def State.graceOnEntry (s : State) (x : Holder) (st : HState) : Option Nat :=
  if st = .blind ∧ isOpenOrOpening (s.valveState x.tab.inlet) = true then some (s.elapsed + 60 * x.tab.blindGrace) else none

/-- The first thing done on entering a state: its safety shut (01 R11, R16-R18; the top guard, 02 R44). -/
def State.entryShuts (s : State) (h : Nat) (x : Holder) (st : HState) : State :=
  let t := if st = .top then s.hand [.topGuard h] else s
  match safetyShut x st with
  | some (v, o) => if s.acting && !isShutOrShutting (s.valveState v) then t.claimSafety h x v o else t
  | none => t

/-- A change between WORKING and CUP raises no notice (01 R11). -/
def noticedChange (old new : HState) : Bool := !((old == .working && new == .cup) || (old == .cup && new == .working))

/-- A holder enters a state (01 R11): the shut claims come before the parked order (log entry 52). Long-still goes on becoming
BLIND (01 R8). -/
def State.enterState (s : State) (h : Nat) (x : Holder) (st : HState) : State :=
  let y : Holder := { x with rt := { x.rt with
    state := st
    longStill := x.rt.longStill && st != .blind
    noticed := keepNoticed x.rt.noticed st
    graceDue := s.graceOnEntry x st
    blindShutDue := false } }
  let t := (s.setHolder h y).entryShuts h y st
  t.hand ((if x.rt.state == .cup && x.rt.park.isSome then [.regate h] else [])
    ++ (if noticedChange x.rt.state st then [.holderNotice h st] else [])
    ++ [.holderTold h true])

/-- The state is re-derived; a change of pressure or stock alone is handed on too (01 R11). `before` is the record held. -/
def State.rederiveFrom (s : State) (h : Nat) (before : HolderRt) : State :=
  match s.holder h with
  | none => s
  | some x =>
    let st := s.derivedState x
    if st ≠ x.rt.state then s.enterState h x st
    else if x.rt.pressure ≠ before.pressure ∨ x.rt.stock ≠ before.stock ∨ x.rt.stale ≠ before.stale then s.hand [.holderTold h false]
    else s

def State.rederive (s : State) (h : Nat) : State :=
  match s.holder h with
  | none => s
  | some x => s.rederiveFrom h x.rt

/-! ### Fault causes (01 R12, R13) -/

/-- A cause is added; with the latch clear, the latch is set and the state re-derived (01 R12). -/
def State.addCause (s : State) (h : Nat) (c : Cause) : State :=
  match s.holder h with
  | none => s
  | some x =>
    if x.rt.causes.has c then s
    else
      let stale := x.rt.stale || c == .record
      (s.setHolder h { x with rt := { x.rt with causes := x.rt.causes.add c, latch := true, stale := stale } }).rederiveFrom h x.rt

/-- A valve recorded SHUT or OPEN from a report of its station removes its causes (01 R13). -/
def clearValveCauses (c : Causes) (v : Nat) : Causes := { c with stuck := setErase v c.stuck, unknown := setErase v c.unknown }

/-! ### Samples (01 R4-R10) -/

/-- The rate and rate base after a sample (01 R7). -/
def nextRate (base : Option (Nat × Nat)) (rate : Int) (now h : Nat) : Int × (Nat × Nat) × Bool :=
  match base with
  | none => (0, (h, now), true)
  | some (h0, t0) =>
    let dt := now - t0
    if 1800 < dt then (0, (h, now), true)
    else if dt < 10 then (rate, (h0, t0), false)
    else
      let r := (((h : Int) - h0) * 60).tdiv dt
      (max (-9999) (min 9999 r), (h, now), true)

/-- 01 R7. -/
def motionOf (rate : Int) : Motion := if 10 < rate then .rising else if rate < -10 then .falling else .still

/-- What geometry and a height give: sighted state, lifts, pressure and stock (01 R5, R6, R10). -/
def withGeometry (r : HolderRec) (rt : HolderRt) (mm : Nat) : HolderRt :=
  let g := sightedAt r rt.sighted mm
  let n := if g.1 = .grounded then 0 else liftsAfloat r mm
  { rt with sighted := some g.1, cupIndex := g.2, lifts := n, pressure := pressureOf r n, stock := stockAt r mm }

/-- The fast flag after a new rate; FAST RISE is raised when it becomes set (01 R9). -/
def State.fastRise (s : State) (h : Nat) (r : HolderRec) (rate : Int) : State :=
  match s.holder h with
  | none => s
  | some x =>
    if (fastLimit r : Int) < rate then
      if x.rt.fast then s
      else (s.modHolder h fun rt => { rt with fast := true }).notify .fastRise (.holder h) (.one rate)
    else s.modHolder h fun rt => { rt with fast := false }

/-- A usable sample (01 R4-R10); while the record is damaged only the height is taken, and the rate base stays (the model's choice,
log entry 71). -/
def State.usableSample (s : State) (h : Nat) (x : Holder) (mm : Nat) : State :=
  let rt1 : HolderRt := { x.rt with
    height := some ⟨mm, s.clock.day, s.clock.second, false⟩
    sampled := true
    causes := { x.rt.causes with gauge := false } }
  if x.rt.causes.record then (s.setHolder h { x with rt := rt1 }).rederiveFrom h x.rt
  else
    let n := nextRate x.rt.rateBase x.rt.rate s.elapsed mm
    let rt2 : HolderRt := { withGeometry x.tab rt1 mm with
      stale := false
      rate := n.1
      rateBase := some n.2.1
      motion := if n.2.2 then motionOf n.1 else x.rt.motion }
    let t := s.setHolder h { x with rt := rt2 }
    (if n.2.2 then t.fastRise h x.tab n.1 else t).rederiveFrom h x.rt

/-- A REPORT or ALERT of a gauge station (01 R4). -/
def State.gaugeReport (s : State) (h : Nat) (body : List Word) : State :=
  match s.holder h with
  | none => s
  | some x =>
    if s.isLost x.tab.gauge then s
    else match gaugeSample body with
      | none => s.addCause h .gauge
      | some mm => s.usableSample h x mm

/-- The gauge station is declared lost (01 R15). -/
def State.gaugeLost (s : State) (h : Nat) : State :=
  match s.holder h with
  | none => s
  | some x =>
    (s.setHolder h { x with rt := { x.rt with
      height := x.rt.height.map fun g => { g with stale := true }
      stale := true
      longStill := false
      stillCount := 0 } }).rederiveFrom h x.rt

/-! ### The rate window (01 R8) -/

/-- One holder at a window expiry. A count of 2 that a holder made BLIND by a record write kept sets long-still again (the model's
choice, log entry 72). -/
def windowHolder (x : Holder) : HolderRt :=
  let rt := x.rt
  let mm := rt.height.map (·.mm)
  let near := match mm, rt.windowMark with
    | some a, some b => decide (a ≤ b + 10 ∧ b ≤ a + 10)
    | _, _ => false
  let count := if rt.sampled && near then min 2 (rt.stillCount + 1) else 0
  { rt with stillCount := count, windowMark := mm, longStill := if count = 2 then true else if count = 0 then false else rt.longStill }

def State.windowOne (s : State) (p : Nat × Holder) : State :=
  match s.holder p.1 with
  | none => s
  | some x =>
    if x.tab.inService && x.rt.sighted.isSome && x.rt.state != .blind then
      let rt := windowHolder x
      let t := s.setHolder p.1 { x with rt := { rt with sampled := false } }
      let opened := s.valveState x.tab.inlet == some .opened || s.valveState x.tab.outlet == some .opened
      if rt.longStill && !x.rt.longStill && opened then
        t.notify .holderStill (.holder p.1) (.one ((rt.height.map (·.mm)).getD 0))
      else t
    else s.setHolder p.1 { x with rt := { x.rt with sampled := false } }

/-! ### Valve changes at the holder unit (01 R13, R20) -/

/-- The grace timer after an inlet's state is told (01 R20). -/
def State.graceAfter (s : State) (x : Holder) (changed : Bool) : Option Nat :=
  let st := s.valveState x.tab.inlet
  if isShutOrShutting st then none
  else if changed && isOpenOrOpening st && x.rt.state == .blind && x.rt.graceDue.isNone && !x.rt.blindShutDue then
    some (s.elapsed + 60 * x.tab.blindGrace)
  else x.rt.graceDue

/-- The causes that name a valve leave every holder that holds them, whichever valves it names now (01 R13). -/
def State.valveCleared (s : State) (v : Nat) : State :=
  { s with holders := s.holders.map fun p => (p.1, { p.2 with rt := { p.2.rt with causes := clearValveCauses p.2.rt.causes v } }) }

/-- A valve's state is told to the holder unit (02 R33). -/
def State.holderValve (s : State) (v : Nat) (byReport changed : Bool) : State :=
  let st := s.valveState v
  let t := if byReport ∧ (st = some .shut ∨ st = some .opened) then s.valveCleared v else s
  match t.inletHolder v with
  | none => t
  | some h =>
    match t.holder h with
    | none => t
    | some x => t.setHolder h { x with rt := { x.rt with graceDue := t.graceAfter x changed } }

/-! ### Standing safety shuts and the blind grace (01 R19, R21) -/

/-- The standing condition of one holder is examined (01 R19). -/
def State.safetyExamineOne (s : State) (h : Nat) : State :=
  match s.holder h with
  | none => s
  | some x =>
    if x.tab.inService then
      match safetyShut x x.rt.state with
      | some (v, o) =>
        if !isShutOrShutting (s.valveState v) && !s.valveHoldsShut v then s.claimSafety h x v o else s
      | none => s
    else s

/-- Every holder is examined, in RUN or HOLD (01 R19). -/
def State.safetyExamine (s : State) : State :=
  if s.acting then s.hand (s.holders.map fun p => .safetyExamineOne p.1) else s

/-- The blind grace timer has expired (01 R21). -/
def State.graceExpired (s : State) (h : Nat) (x : Holder) : State :=
  let t := (s.setHolder h { x with rt := { x.rt with graceDue := none, blindShutDue := true } }).notify .blindShut (.holder h) .absent
  t.hand (if s.acting then [.claim (.valve x.tab.inlet) .shut 0 .autoBlind none, .fillGrace h] else [])

/-! ### Writes (01 R2, R3) -/

/-- The records differ in service alone (01 R3). -/
def sameButService (a b : HolderRec) : Bool := { a with inService := b.inService } == b

/-- The refusals of a holder record write, in the order of 01 R2 and R3 (log entry 17). -/
def State.holderRefusal (s : State) (n : Nat) (r : HolderRec) : Option Result :=
  if s.holderValveConflict n r then some .conflict
  else match s.examineBindings [(.gauge n, r.gauge)] with
    | some e => some e
    | none =>
      if s.runState = .standby then none
      else match s.holder n with
        | some x => if x.damaged || sameButService x.tab r then none else some .badState
        | none => some .badState

/-- Everything derived from geometry, from the height held (01 R2). The stale marks of a loss stay until a usable sample (R15):
with no height held they go with the cause RECORD-DAMAGED only, and not while the gauge is lost. A rate kept takes the height's mark (the
model's choice, log entry 84), and a gauge already lost that the record now names marks nothing stale (log entry 83). -/
def rewritten (r : HolderRec) (lost : Bool) (rt : HolderRt) : HolderRt :=
  let base := { rt with reserveStock := stockAt r r.reserve, causes := { rt.causes with record := false } }
  match rt.height with
  | none => { base with stale := rt.stale && (lost || !rt.causes.record) }
  | some g => { withGeometry r base g.mm with stale := g.stale }

/-- A holder record write that is taken (01 R2, R3). A grace timer, a parked order and a changeover stand as they were when the
record names other valves, and a place in the drawing set follows the outlet now named (the model's choices, log entries 73, 75, 77, 96
and 97); a holder that becomes BLIND here keeps its values without a stale mark (log entry 83). The top guard examines the slot of an
inlet now named by a holder that stays in TOP, so that no OPEN stands there (02 R44; log entry 16). -/
def State.takeHolder (s : State) (n : Nat) (r : HolderRec) : State :=
  let t := s.rebind [.gauge n] [(.gauge n, r.gauge)]
  match t.holder n with
  | none => (t.setHolder n ⟨r, false, HolderRt.initial r⟩).hand [.holderTold n false, .drawOutlet r.outlet]
  | some x =>
    let y : Holder := { tab := r, damaged := false, rt := rewritten r (t.isLost r.gauge) x.rt }
    let u := t.setHolder n y
    let st := u.derivedState y
    let w := if st = y.rt.state then
        u.hand ((if st = .top ∧ x.tab.inlet ≠ r.inlet then [.topGuard n] else []) ++ [.holderTold n false])
      else u.rederiveFrom n x.rt
    if x.tab.outlet = r.outlet then w else w.hand [.drawOutlet r.outlet]

/-- A holder record is removed: handed on as entering OUT (10 R197). Its parked order is answered while the request that removes the
record still waits for its own ANSWER (07 R150; log entry 110). -/
def State.dropHolder (s : State) (n : Nat) : State :=
  let t := s.answerParked n .superseded true
  (({ t with holders := tblDel t.holders n }).unbind (.gauge n)).hand [.holderTold n true]

/-! ### Warm restart (01 R28) -/

/-- One holder's runtime record at a warm restart; `inlet` is its inlet's state when the restart was requested. -/
def restartHolder (now : Nat) (inlet : Option VState) (x : Holder) : Holder :=
  { x with rt := { x.rt with
    stillCount := 0
    longStill := false
    fast := false
    park := none
    graceDue := if x.rt.state = .blind ∧ isOpenOrOpening inlet = true then some (now + 60 * x.tab.blindGrace) else none } }

/-- The parked orders to which a warm restart owes a TOO-LATE answer, in holder order (07 R157). -/
def State.parkedAnswers (s : State) : List DeskRef := s.holders.filterMap fun p => p.2.rt.park.map (·.tag)

end Sys2Proof.Machine
end

