-- ==== Sys2Proof/Machine/Filling.lean ====
section
/-! DEFINITION. The fill side of the fill and draw unit (03 R54-R71, R79, R80): rota, selection, changeover, strays. -/

namespace Sys2Proof.Machine

/-! ### What the unit sees -/

/-- The state of a holder's inlet as recorded; none where the holder or the valve has no record. -/
def State.inletState (s : State) (h : Nat) : Option VState :=
  match s.holder h with
  | some x => s.valveState x.tab.inlet
  | none => none

def State.inletOf (s : State) (h : Nat) : Option Nat := (s.holder h).map (·.tab.inlet)

/-- A holder in service in a state in which it may be newly selected (03 R59). -/
def State.mayFill (s : State) (h : Nat) : Bool :=
  match s.holder h with
  | none => false
  | some x => x.tab.inService && (match x.rt.state with
      | .grounded | .low | .working | .cup => true
      | _ => false)

/-- A holder may be newly selected (03 R59). -/
def State.eligible (s : State) (h : Nat) : Bool :=
  s.mayFill h && (match s.holder h with
    | some x => !x.rt.fillBar
    | none => false)

/-- The filling holder may continue (03 R59). -/
def State.mayContinue (s : State) (h : Nat) : Bool :=
  match s.holder h with
  | none => false
  | some x => x.tab.inService && !x.rt.fillBar && isOpenOrOpening (s.valveState x.tab.inlet)
      && (match x.rt.state with
        | .grounded | .low | .working | .cup | .high => true
        | .blind => !x.rt.blindShutDue
        | _ => false)

/-- An inlet counts as open at START ROTA and at the start conditions (03 R57, R64). -/
def State.inletCounts (s : State) (h : Nat) : Bool :=
  match s.holder h with
  | none => false
  | some x => isOpenOrOpening (s.valveState x.tab.inlet) || s.valveHoldsOpen x.tab.inlet

def State.running (s : State) : Bool := s.runState == .run

def State.modFill (s : State) (f : Fill → Fill) : State := { s with fill := f s.fill }

/-- Make unplaced and yard flag 7 are set or cleared together (03 R61, R63, 10 R203). -/
def State.setUnplaced (s : State) (b : Bool) : State :=
  { s with fill := { s.fill with unplaced := b }, flags := setFlag s.flags 7 b }

/-! ### Selection (03 R61-R63) -/

/-- The holders named from the current turn on, the filling holder last (03 R61). -/
def State.candidates (s : State) : List Nat :=
  (List.range 24).filterMap fun i => (s.fill.work[(s.fill.turn + i) % 24]?).map turnHolder

/-- The holder a selection finds (03 R61). -/
def State.found (s : State) : Option Nat :=
  match s.candidates.find? s.eligible with
  | some h => some h
  | none => match s.fill.filling with
    | some h => if s.mayContinue h then some h else none
    | none => none

/-- The make is unplaced (03 R63). -/
def State.makeUnplaced (s : State) : State :=
  let subject := match s.fill.filling with
    | some h => Subject.holder h
    | none => .none
  let t := if s.fill.unplaced then s else s.notify .makeUnplaced subject .absent
  let keep := match s.fill.filling with
    | some h => isOpenOrOpening (s.inletState h)
    | none => false
  (t.setUnplaced true).modFill fun f => { f with filling := if keep then f.filling else none, selDue := false }

def State.inCup (s : State) (h : Nat) : Bool := (s.holder h).isSome && s.holderState h == .cup

def State.inCup? (s : State) : Option Nat → Bool
  | some h => s.inCup h
  | none => false

/-- A fill changeover begins (03 R62, R64). -/
def State.beginFill (s : State) (new : Nat) : State :=
  let old := s.fill.filling
  let due := if s.inCup? old || s.inCup new then some (s.elapsed + s.yardNow.park) else none
  ((s.modFill fun f => { f with chg := some ⟨old, new, .openingNew, false, due, false⟩ }).notify .fillChangeover (.holder new)
    (.one (old.getD 0))).hand [.fillTest]

/-- A selection (03 R61). -/
def State.fillSelect (s : State) : State :=
  if s.fill.running && s.running && s.fill.chg.isNone then
    match s.found with
    | none => s.makeUnplaced
    | some h =>
      let t := (s.setUnplaced false).modFill fun f => { f with selDue := false }
      if s.fill.filling = some h then t else t.beginFill h
  else s

/-- The selections made again while the make is unplaced (03 R63). -/
def State.unplacedRetry (s : State) : List Handoff :=
  if s.fill.unplaced && s.running && s.fill.running && s.fill.chg.isNone then [.fillSelect] else []

/-! ### The changeover (03 R64-R69) -/

/-- The changeover ends (03 R67). -/
def State.endFill (s : State) : State :=
  let t := (s.modFill fun f => { f with chg := none }).notify .fillDone
    (match s.fill.filling with
      | some h => .holder h
      | none => .none) .absent
  let again := s.running && s.fill.running && (s.fill.selDue || !(match s.fill.filling with
    | some h => s.mayContinue h
    | none => false))
  if again then t.hand [.fillSelect] else t

/-- The old inlet is claimed SHUT, when claims of the unit are made (03 R65, R66, R71). -/
def State.claimOldShut (s : State) (old : Nat) : List Handoff :=
  match s.inletOf old with
  | some v => if s.acting then [.claim (.valve v) .shut 0 .fill none] else []
  | none => []

/-- The new inlet is recorded OPEN during OPENING-NEW (03 R65). An old holder whose record was removed meanwhile has no inlet
to shut: the changeover ends, while one whose inlet has no valve record is claimed SHUT (the model's choices, log entries 61 and 89). -/
def State.fillNewOpen (s : State) (c : FillChange) : State :=
  let t := s.modFill fun f => { f with
    filling := some c.new
    chg := some { c with phase := .shuttingOld, deferral := none } }
  match c.old with
  | none => t.endFill
  | some old =>
    match s.inletState old with
    | none => if (s.inletOf old).isSome then t.hand (s.claimOldShut old) else t.endFill
    | some .shut | some .stuck | some .unknown => t.endFill
    | some .shutting => t
    | _ => t.hand (s.claimOldShut old)

/-- The three start conditions (03 R64). -/
def State.startConditions (s : State) (c : FillChange) (v : Nat) : Bool :=
  (c.waived || s.reached c.deferral || !(s.inCup? c.old || s.inCup c.new))
  && s.holders.all (fun p => c.old == some p.1 || c.new == p.1 || !s.inletCounts p.1)
  && s.valveFree v

/-- The start conditions are tested (03 R64). A new holder that is not eligible any more is not opened: its changeover is abandoned as
soon as its state or bar is told (03 R68), so that no OPEN enters the inlet slot of a holder that has just entered TOP (02 R44). -/
def State.fillTest (s : State) : State :=
  match s.fill.chg with
  | none => s
  | some c =>
    match c.phase, s.inletOf c.new with
    | .openingNew, some v =>
      if s.valveState v = some .opened then s.fillNewOpen c
      else if !c.openClaimed && s.acting && s.eligible c.new && s.startConditions c v then
        (s.modFill fun f => { f with chg := some { c with openClaimed := true, deferral := none } }).hand
          [.claim (.valve v) .opn 0 .fill none]
      else s
    | _, _ => s

/-- The new holder is no longer eligible during OPENING-NEW: the changeover is abandoned (03 R68, R71); a holder whose record was removed
has no inlet to claim SHUT (the model's choice, log entry 95). -/
def State.abandonFill (s : State) (c : FillChange) : State :=
  let shut := match s.inletOf c.new with
    | some v => if c.openClaimed && !isShutOrShutting (s.valveState v) then [Handoff.claim (.valve v) .shut 0 .fill none] else []
    | none => []
  (s.modFill fun f => { f with chg := none }).hand (shut ++ if s.running then [.fillSelect] else [])

/-- The new holder is looked at again; in STANDBY the matter waits for RUN (03 R68, R71). -/
def State.newHolderCheck (s : State) (h : Nat) : State :=
  match s.fill.chg with
  | some c => if c.phase = .openingNew ∧ c.new = h ∧ s.eligible h = false ∧ s.acting = true then s.abandonFill c else s
  | none => s

/-- An event of 03 R60 on a holder; `own` marks an inlet recorded SHUTTING or SHUT (03 R66; log entry 18). A waiver makes the deferral
deadline absent at once (the model's choice, log entry 76). -/
def State.fillUnable (s : State) (h : Nat) (own : Bool) : State :=
  match s.fill.chg with
  | none => if s.fill.filling = some h ∧ s.fill.running = true ∧ s.running = true then s.hand [.fillSelect] else s
  | some c =>
    match c.phase with
    | .openingNew =>
      if c.old = some h ∧ c.openClaimed = false then
        (s.modFill fun f => { f with chg := some { c with waived := true, deferral := none } }).hand [.fillTest]
      else s
    | .shuttingOld =>
      if c.new = h ∨ (c.old = some h ∧ own = false) then s.modFill fun f => { f with selDue := true } else s

/-- The new inlet's OPEN has ended without the valve open (03 R69). Selection due stands while the old holder goes on and is cleared with
the make left unplaced (the model's choice, log entry 55). -/
def State.fillFailed (s : State) (c : FillChange) : State :=
  let t := (s.modFill fun f => { f with chg := none }).notify .fillFailed (.holder c.new) .absent
  let goesOn := match c.old with
    | some h => s.mayContinue h
    | none => false
  if goesOn then t else if s.running then t.makeUnplaced else t

/-- An outcome of a FILL order (02 R37, 03 R69). An OPEN superseded by the safety shut of a new holder that enters a state in
which it is not eligible belongs to the abandoning of the changeover (03 R68; the model's choice, log entry 94). The new inlet is the one
that the holder's record names now (log entry 96). -/
def State.fillOutcome (s : State) (v : Nat) (code : OrderCode) (o : SlotOutcome) : State :=
  match s.fill.chg with
  | none => s
  | some c =>
    let failed := match o with
      | .accepted | .done => false
      | _ => true
    if code = .opn ∧ failed = true ∧ c.phase = .openingNew ∧ c.openClaimed = true ∧ s.inletOf c.new = some v then
      if o = .superseded ∧ s.mayFill c.new = false ∧ s.acting = true then s.abandonFill c else s.fillFailed c
    else s

/-! ### Events handed to the unit -/

/-- A holder's state is handed to the fill side (01 R11). A state that makes the filling holder unable to continue while the make is
unplaced calls for the selection of 03 R60 and for the retry of R63, and both are made (the model's choice, log entry 122). -/
def State.fillTold (s : State) (h : Nat) : State :=
  let t := s.newHolderCheck h
  let u := match s.holderState h with
    | .top | .fault | .out => t.fillUnable h false
    | _ => t
  u.hand (.fillTest :: u.unplacedRetry)

/-- A fill bar is set or cleared (01 R25). -/
def State.fillBarTold (s : State) (h : Nat) (set : Bool) : State :=
  if set then (s.newHolderCheck h).fillUnable h false
  else s.hand s.unplacedRetry

/-- An inlet's state has changed (02 R33). An old inlet that ends the changeover is no event of 03 R60 besides, be it UNKNOWN, and an
inlet whose valve record is removed is one (the model's choices, log entries 78 and 88). -/
def State.fillInlet (s : State) (h : Nat) : State :=
  let st := s.inletState h
  let openish := isOpenOrOpening st || st == some .halted
  let t := if openish then s else s.modFill fun f => { f with stray := setErase h f.stray }
  match t.fill.chg with
  | some c =>
    if c.phase = .openingNew ∧ c.new = h ∧ st = some .opened then t.fillNewOpen c
    else if c.phase = .shuttingOld ∧ c.old = some h ∧ (st = some .shut ∨ st = some .stuck ∨ st = some .unknown) then t.endFill
    else if isOpenOrOpening st then t
    else t.fillUnable h (isShutOrShutting st)
  | none => if isOpenOrOpening st then t else t.fillUnable h (isShutOrShutting st)

/-- A valve's state has changed (02 R33): the changeover, the start conditions and the strays (03 R64-R66, R70). -/
def State.fillValve (s : State) (v : Nat) : State :=
  match s.inletHolder v with
  | some h => (s.fillInlet h).hand [.fillTest, .fillStrays]
  | none => s.hand [.fillTest]

/-! ### Strays and the cycle (03 R66, R70) -/

/-- A holder outside the changeover whose inlet stands open (03 R70). -/
def State.isStray (s : State) (h : Nat) : Bool :=
  let st := s.inletState h
  let openish := isOpenOrOpening st || st == some .halted
  let inChange := match s.fill.chg with
    | some c => c.old == some h || c.new == h
    | none => false
  openish && s.fill.filling != some h && !inChange

def State.fillStray (s : State) (h : Nat) : State :=
  match s.inletOf h with
  | none => s
  | some v =>
    if s.isStray h && !s.valveHoldsShut v then
      let t := if s.fill.stray.contains h then s
        else (s.modFill fun f => { f with stray := setInsert h f.stray }).notify .inletStray (.valve v) .absent
      t.hand [.claim (.valve v) .shut 0 .fill none]
    else s

def State.fillStrays (s : State) : State :=
  if s.acting && s.fill.running then s.hand (s.holders.map fun p => .fillStray p.1) else s

/-- The old inlet is claimed SHUT again (03 R66). Where the old holder's record was removed there is nothing to claim, and the
changeover stands (the model's choice, log entry 61); where its inlet's valve record was, the claim is made and fails (log entry 89). -/
def State.reissueOld (s : State) : List Handoff :=
  match s.fill.chg with
  | some c =>
    match c.phase, c.old with
    | .shuttingOld, some old => if isShutOrShutting (s.inletState old) then [] else s.claimOldShut old
    | _, _ => []
  | none => []

/-- The poll-cycle expiry at the fill side (03 R63, R66, R70). -/
def State.fillCycle (s : State) : State := s.hand (s.reissueOld ++ s.unplacedRetry ++ [.fillStrays])

/-- Entry to RUN at the fill side (03 R71). From HOLD too an old inlet whose SHUT failed is claimed again and strays are looked for at
once, not only at the next cycle (the model's choice, log entry 127; the draw side's, log entry 87). -/
def State.fillRun (s : State) : State :=
  if s.fill.running then
    match s.fill.chg with
    | some c =>
      let t := if c.phase = .openingNew ∧ s.eligible c.new = false then s.abandonFill c else s
      t.hand (s.reissueOld ++ [.fillTest, .fillStrays])
    | none => s.hand [.fillSelect, .fillStrays]
  else s

/-! ### The rota (03 R54-R58, R80) -/

/-- A rota of 24 turn values in range (03 R54). -/
def turnsOf (ts : List Nat) : List Turn := ts.map fun n => ⟨n, false⟩

/-- LOAD ROTA taken (03 R54). -/
def loadPending (ts : List Nat) (f : Fill) : Fill :=
  if f.running then { f with pend := turnsOf ts, pendFlag := true }
  else { f with pend := turnsOf ts, work := turnsOf ts, pendFlag := false }

/-- The turn boundary of 03 R56; the wrap copies the turns with their damage marks (log entry 37). -/
def State.turnBoundary (s : State) (due : Nat) : State :=
  let next := (s.fill.turn + 1) % 24
  let wrap := next = 0 ∧ s.fill.pendFlag = true
  let t := s.modFill fun f => { f with
    turn := next
    turnDue := some (due + 60 * s.yardNow.turnPeriod)
    work := if wrap then f.pend else f.work
    pendFlag := if wrap then false else f.pendFlag }
  let u := if wrap then t.notify .rotaSwitched .none .absent else t
  if s.running then
    if s.fill.chg.isSome then u.modFill fun f => { f with selDue := true } else u.hand [.fillSelect]
  else u

/-- The holders whose inlets count (03 R57). -/
def State.countedInlets (s : State) : List Nat := (s.holders.map (·.1)).filter s.inletCounts

/-- START ROTA taken (03 R57). -/
def State.startRotaNow (s : State) : State :=
  let t := (s.setUnplaced false).modFill fun f => { f with
    running := true
    turn := 0
    turnDue := some (s.elapsed + 60 * s.yardNow.turnPeriod)
    filling := s.countedInlets.head?
    selDue := false }
  if s.running then t.hand [.fillSelect] else t

/-- STOP ROTA (03 R58). -/
def State.stopRotaNow (s : State) : State :=
  (s.setUnplaced false).modFill fun f => { f with
    running := false
    turnDue := none
    chg := none
    filling := none
    selDue := false }

/-- Warm restart of the fill side (03 R80). -/
def State.restartFill (s : State) : State := s.stopRotaNow.modFill fun f => { f with stray := [] }

end Sys2Proof.Machine
end

