-- ==== Sys2Proof/Machine/Drawing.lean ====
section
/-! DEFINITION. The draw side of the fill and draw unit and yard main pressure (03 R72-R80). -/

namespace Sys2Proof.Machine

def State.modDraw (s : State) (f : Draw → Draw) : State := { s with draw := f s.draw }

def State.outletOf (s : State) (h : Nat) : Option Nat := (s.holder h).map (·.tab.outlet)

def State.outletState (s : State) (h : Nat) : Option VState :=
  match s.outletOf h with
  | some v => s.valveState v
  | none => none

/-- 03 R73. -/
def State.drawEligible (s : State) (h : Nat) : Bool :=
  match s.holder h with
  | none => false
  | some x => x.tab.inService && !x.rt.drawBar
      && (match x.rt.state with
        | .working | .cup | .high | .top => true
        | _ => false)

/-- The target set, in the order it is taken (03 R73). A LOW holder of the drawing set counts whatever its draw bar, until its outlet
is recorded on its way to SHUT (the model's choice, log entry 100). -/
def State.drawTarget (s : State) : List Nat :=
  let r := s.drawRec
  let first := (r.list.filter s.drawEligible).take r.count
  let low := r.list.filter fun h => s.draw.set.contains h && s.holderState h == .low
  first ++ low.take (r.count - first.length)

/-- Numbers in the order of the draw list, those outside it after. -/
def State.inListOrder (s : State) (hs : List Nat) : List Nat :=
  s.drawRec.list.filter hs.contains ++ hs.filter fun h => !s.drawRec.list.contains h

/-- The drawing set differs from the target. -/
def State.drawDiffers (s : State) : Bool :=
  s.draw.set.any (fun h => !s.drawTarget.contains h) || s.drawTarget.any fun h => !s.draw.set.contains h

/-- An evaluation (03 R74). -/
def State.drawEvaluate (s : State) : State :=
  let target := s.drawTarget
  let entering := s.inListOrder (target.filter fun h => !s.draw.set.contains h)
  let leaving := s.inListOrder (s.draw.set.filter fun h => !target.contains h)
  let t := s.modDraw fun d => { d with evalDue := false }
  if entering.isEmpty && leaving.isEmpty then t
  else (t.modDraw fun d => { d with chg := some ⟨entering.map fun h => (h, .waiting), leaving, false, [], []⟩ }).hand [.drawStep]

/-- An evaluation is called for: made now, or due (03 R74). -/
def State.drawCall (s : State) : State :=
  if s.drawMode = .auto then
    if s.running && s.draw.chg.isNone then s.drawEvaluate else s.modDraw fun d => { d with evalDue := true }
  else s

/-- Outside a changeover, one holder's place in the drawing set follows its outlet record (03 R74); an outlet with no valve record
changes nothing, and the outlet is the one that the holder's record names now (the model's choices, log entries 86 and 97). -/
def State.followOne (s : State) (h : Nat) : List Nat → List Nat := fun set =>
  match s.outletState h with
  | some .opened => setInsert h set
  | some .opening | none => set
  | _ => setErase h set

/-- Every holder with a record is followed; a drawing holder without one stays in the set (the model's choice, log entry 79). -/
def State.followAll (s : State) : List Nat := (s.holders.map (·.1)).foldl (fun set h => s.followOne h set) s.draw.set

/-- A draw changeover ends (03 R75). -/
def State.endDraw (s : State) (c : DrawChange) : State :=
  let failed := (c.entering.filter fun e => e.2 == .failed).length
  let t := (s.modDraw fun d => { d with chg := none }).notify .drawDone .none (.one failed)
  let u := t.modDraw fun d => { d with set := s.followAll }
  if u.draw.evalDue || u.draw.set != t.draw.set then u.hand [.drawCall] else u

/-- The status of one entry at a step: OPEN with its outlet, failed when its holder is no longer draw-eligible (03 R75). -/
def State.entryStatus (s : State) (e : Nat × EntryStatus) : Nat × EntryStatus :=
  if e.2 = .waiting then
    if s.outletState e.1 = some .opened then (e.1, .opened)
    else if s.drawEligible e.1 then e
    else (e.1, .failed)
  else e

/-- The changeover with one claim of SHUT no longer owed. -/
def shutMade (h : Nat) (c : DrawChange) : DrawChange := { c with owed := c.owed.filter (· != h) }

/-- The claim of OPEN for an entry (03 R75), made only where the entry is still WAITING and nothing else speaks against it when its
turn comes: the outcome of a claim made before it may have carried the changeover on already. -/
def State.drawOpen (s : State) (h : Nat) : State :=
  match s.draw.chg, s.outletOf h with
  | some c, some v =>
    if s.acting && !c.closing && c.entering.contains (h, .waiting) && s.entryStatus (h, .waiting) == (h, .waiting) && s.valveFree v then
      s.hand [.claim (.valve v) .opn 0 .draw none]
    else s
  | _, _ => s

/-- An owed claim of SHUT (03 R75), made once: on a leaving outlet, or on that of an entry which failed before its outlet was OPEN,
where the slot holds an OPEN or the outlet is recorded OPENING. -/
def State.drawShut (s : State) (h : Nat) : State :=
  match s.draw.chg with
  | none => s
  | some c =>
    if s.acting && c.owed.contains h then
      (s.modDraw fun d => { d with chg := some (shutMade h c) }).hand (match s.outletOf h with
        | some v =>
          if c.closing || s.valveHoldsOpen v || s.valveState v == some .opening then [.claim (.valve v) .shut 0 .draw none] else []
        | none => [])
    else s

/-- The leaving outlets are dealt with once every entry is OPEN or failed (03 R75); the end is tested behind the claims, as outlets
claimed may all be recorded STUCK or UNKNOWN already. -/
def State.drawClose (s : State) (c : DrawChange) : State :=
  let failed := c.entering.any fun e => e.2 == .failed
  let rest := s.draw.set.filter fun h => !c.leaving.contains h
  if failed || rest.isEmpty then s.endDraw c
  else
    let claimed := c.leaving.filter fun h => (s.outletOf h).isSome && !isShutOrShutting (s.outletState h)
    let t := s.modDraw fun d => { d with set := rest, chg := some { c with closing := true, claimed := claimed, owed := claimed } }
    if claimed.isEmpty then t.endDraw c else t.hand (claimed.map .drawShut ++ [.drawStep])

/-- A claimed leaving outlet has ended (03 R75); so has one without a record (the model's choice, log entry 80). -/
def State.leftOff (s : State) (h : Nat) : Bool :=
  match s.outletState h with
  | some .shut | some .stuck | some .unknown | none => true
  | _ => false

/-- The changeover is carried on (03 R75, R76): at the close once no claim of SHUT is owed any more and each claimed outlet has ended;
before it, each entry takes its status and each claim that is due is made, one after another. -/
def State.drawStep (s : State) : State :=
  match s.draw.chg with
  | none => s
  | some c =>
    if c.closing then if c.owed.isEmpty && c.claimed.all s.leftOff then s.endDraw c else s
    else
      let entering := c.entering.map s.entryStatus
      let owed := c.owed ++ ((c.entering.filter fun e => e.2 == .waiting && s.entryStatus e == (e.1, .failed)).map (·.1))
      let joined := (entering.filter fun e => e.2 == .opened).foldl (fun set e => setInsert e.1 set) s.draw.set
      let t := s.modDraw fun d => { d with set := joined, chg := some { c with entering := entering, owed := owed } }
      if s.acting then
        t.hand (owed.map .drawShut ++ (entering.filter (·.2 == .waiting)).map (fun e => .drawOpen e.1)
          ++ if entering.all fun e => e.2 != .waiting then [.drawFinish] else [])
      else t

/-- The last part of a step, after the claims it made. -/
def State.drawFinish (s : State) : State :=
  match s.draw.chg with
  | some c => if !c.closing && c.owed.isEmpty && c.entering.all (fun e => e.2 != .waiting) then s.drawClose c else s
  | none => s

/-- An entry fails when its outlet's OPEN is handed back failed or superseded, or the outlet is judged (03 R75). An OPEN of origin DRAW
left in the slot by an earlier changeover that was dropped fails it too (the model's choice, log entry 126). -/
def State.drawOutcome (s : State) (v : Nat) (code : OrderCode) (origin : Origin) (o : SlotOutcome) : State :=
  match s.draw.chg with
  | none => s
  | some c =>
    let fails := match o with
      | .accepted | .done => false
      | .stuck | .unknown => true
      | _ => origin == Origin.draw && code == OrderCode.opn
    if fails then
      s.modDraw fun d => { d with chg := some { c with
        entering := c.entering.map fun (e : Nat × EntryStatus) =>
          if e.2 = .waiting ∧ s.outletOf e.1 = some v then (e.1, .failed) else e } }
    else s

/-- A holder's state or bar is handed to the draw side (03 R74, R75). -/
def State.drawTold (s : State) : State := s.hand [.drawStep, .drawCall]

/-- An outlet's state has changed (02 R33, 03 R74, R75). -/
def State.drawOutlet (s : State) (v : Nat) : State :=
  match s.outletHolder v with
  | none => s
  | some h =>
    match s.draw.chg with
    | some _ => s.hand [.drawStep, .drawCall]
    | none =>
      let t := if s.drawMode = .auto then s.modDraw fun d => { d with set := s.followOne h d.set } else s
      t.hand [.drawCall]

/-- The poll-cycle expiry at the draw side (03 R74, R75): each claimed leaving outlet neither SHUT nor SHUTTING is claimed again, one
STUCK or UNKNOWN too (the model's choice, log entry 87). -/
def State.drawCycle (s : State) : State :=
  let again := match s.draw.chg with
    | some c =>
      if c.closing && s.acting then
        c.claimed.filterMap fun h => if isShutOrShutting (s.outletState h) then none
          else (s.outletOf h).map fun v => Handoff.claim (.valve v) .shut 0 .draw none
      else []
    | none => []
  s.hand (again ++ if s.drawDiffers then [.drawCall] else [])

/-- Entry to RUN at the draw side (03 R74, R76, R78); the claims of `drawCycle` are made again (log entry 87). An evaluation is called
for at every entry, also where none was held back: made at once, or due while a changeover is present (the model's choice, log entry
119). -/
def State.drawRun (s : State) : List Handoff :=
  (match s.draw.chg with
    | some c => (if c.closing then c.claimed.filterMap fun h => if isShutOrShutting (s.outletState h) then none
          else (s.outletOf h).map fun v => Handoff.claim (.valve v) .shut 0 .draw none
        else []) ++ [.drawStep]
    | none => [])
  ++ [.drawCall, .noDrawCheck]

/-- The effects of a change to MANUAL (03 R76). -/
def State.drawManual (s : State) : State := s.modDraw fun d => { d with chg := none, set := [], evalDue := false }

/-- The effects of a change to AUTO (03 R76). -/
def State.drawAuto (s : State) : State :=
  let set := (s.holders.filter fun p => p.2.tab.inService && isOpenOrOpening (s.valveState p.2.tab.outlet)).map (·.1)
  (s.modDraw fun d => { d with set := set }).hand [.drawCall]

/-! ### Yard main pressure (03 R77, R78) -/

/-- The holders that feed the yard main. -/
def State.feeding (s : State) : List Holder :=
  (s.holders.map (·.2)).filter fun x => x.tab.inService && s.valveState x.tab.outlet == some .opened

/-- The yard main pressure and its stale mark (03 R77; log entry 21). -/
def State.mainOf (s : State) : Nat × Bool :=
  let top := s.feeding.foldl (fun acc x => max acc x.rt.pressure) 0
  (top, s.feeding.any fun x => x.rt.pressure == top && x.rt.stale)

/-- NO DRAW, once for each spell at 0 in RUN (03 R78). -/
def State.noDrawCheck (s : State) : State :=
  if s.draw.main = 0 then
    if s.running && !s.draw.noDraw then (s.modDraw fun d => { d with noDraw := true }).notify .noDraw .none .absent else s
  else s.modDraw fun d => { d with noDraw := false }

/-- Yard main pressure is recomputed; a new value is handed on (03 R77). -/
def State.mainPressure (s : State) : State :=
  let m := s.mainOf
  if m.1 = s.draw.main ∧ m.2 = s.draw.mainStale then s
  else ((s.modDraw fun d => { d with main := m.1, mainStale := m.2 })).hand [.noDrawCheck, .headAll]

/-! ### Warm restart (03 R80) -/

/-- The changeover is dropped, and in AUTO the drawing set follows the outlets as they are left (03 R74, R80); yard main pressure
is recomputed. -/
def State.restartDraw (s : State) : State :=
  let t := s.modDraw fun d => { d with
    chg := none
    evalDue := false
    set := if s.drawMode = .auto then s.followAll else d.set }
  let m := t.mainOf
  t.modDraw fun d => { d with main := m.1, mainStale := m.2 }

/-! ### The draw record (03 R72) -/

def checkDraw (r : DrawRec) : EntryCheck :=
  checkEntry ([(0, inRange 0 4 r.list.length)] ++ (r.list.zipIdx.map fun p => (1 + p.2, inRange 1 4 p.1))
    ++ [(5, inRange 1 2 r.count)]) (decide r.list.Nodup)

end Sys2Proof.Machine
end

