-- ==== Sys2Proof/Machine/Pressure.lean ====
section
/-! DEFINITION. The pressure unit (04 R81-R100): targets, head, states, the governor loop. -/

namespace Sys2Proof.Machine

/-! ### The district table (04 R81, R82) -/

/-- The words of one profile, whose first word stands at place `i`. -/
def profileTests (i : Nat) (p : List Segment) : List (Nat × Bool) :=
  (i, inRange 1 6 p.length)
    :: p.zipIdx.flatMap fun q => [(i + 1 + 2 * q.2, inRange 0 1439 q.1.start), (i + 2 + 2 * q.2, inRange 50 500 q.1.setpoint)]

/-- Start minutes strictly ascending, the floor no higher than any setpoint (04 R82). -/
def profileRelation (floor : Nat) (p : List Segment) : Bool :=
  decide ((p.map (·.start)).Pairwise (· < ·)) && p.all fun q => decide (floor ≤ q.setpoint)

/-- 04 R82 step 1. -/
def checkDistrict (r : DistrictRec) : EntryCheck :=
  checkEntry
    ([(2, inRange 1 199 r.governor), (3, inRange 1 199 r.recorder), (4, inRange 1 199 r.meter),
      (5, decide (-300 ≤ r.headGain ∧ r.headGain ≤ 1500)), (6, inRange 0 500 r.floor)]
      ++ profileTests 7 r.profA ++ profileTests 20 r.profB
      ++ [(33, match r.profFlag with
            | none => true
            | some f => decide (f ≤ 5)),
          (34, inRange 2 30 r.deadBand), (35, inRange 30 600 r.settle), (36, inRange 1 8 r.rank)])
    (profileRelation r.floor r.profA && profileRelation r.floor r.profB
      && r.governor != r.recorder && r.governor != r.meter && r.recorder != r.meter)

/-- The bindings a district record asks for (04 R82 step 3). -/
def districtBindings (n : Nat) (r : DistrictRec) : List (Binding × Nat) :=
  [(.governor n, r.governor), (.recorder n, r.recorder), (.meter n, r.meter)]

/-! ### Targets (04 R88) -/

/-- The index of the active segment: the greatest start not after the minute, else the last (04 R88). -/
def activeIndex (p : List Segment) (minute : Nat) : Nat :=
  let k := (p.filter fun q => decide (q.start ≤ minute)).length
  if k = 0 then p.length else k

/-- The active segment (04 R88). -/
def State.activeSegment (s : State) (r : DistrictRec) : SegmentRef :=
  if s.clock.set then
    let b := match r.profFlag with
      | some f => s.flags.getLsbD f
      | none => false
    ⟨b, activeIndex (if b then r.profB else r.profA) (s.clock.second / 60)⟩
  else ⟨false, 1⟩

def segmentOf (r : DistrictRec) (g : SegmentRef) : Option Segment := (if g.profB then r.profB else r.profA)[g.index - 1]?

/-- 04 Table 4.4, and the floor. -/
def shedTarget (setpoint shed floor : Nat) : Nat :=
  max floor (match shed with
    | 0 => setpoint
    | 1 => setpoint * 90 / 100
    | 2 => setpoint * 80 / 100
    | _ => floor)

/-- The target of a district record; absent while it is damaged (04 R85, R88). -/
def State.targetOf (s : State) (x : District) : Option Nat :=
  if x.damaged then none
  else (segmentOf x.tab (s.activeSegment x.tab)).map fun g => shedTarget g.setpoint x.rt.shed x.tab.floor

/-- The target is recomputed; a change calls for a head evaluation (04 R88, R90). -/
def State.retarget (s : State) (d : Nat) : State :=
  match s.district d with
  | none => s
  | some x =>
    let target := s.targetOf x
    let seg := if x.damaged then none else some (s.activeSegment x.tab)
    let t := s.setDistrict d { x with rt := { x.rt with target := target, seg := seg } }
    if target = x.rt.target then t else t.hand [.headEval d]

def State.retargetAll (s : State) : State := s.hand (s.districts.map fun p => .target p.1)

/-! ### State (04 R84, R85) -/

/-- 04 Table 4.3. -/
def State.districtState (s : State) (x : District) : DState :=
  if !x.tab.inService || x.damaged then .out
  else if x.rt.last.isNone then .out
  else if s.isLost x.tab.recorder || x.rt.recorderFault then .blind
  else if x.rt.headShort then .headShort
  else .tracking

/-- RECORDER-LOST is marked in the open account's entry of a district (04 R85, 06 R125). -/
def State.markRecorderLost (s : State) (d : Nat) : State :=
  match tblGet s.acct.openAcct.parts d with
  | none => s
  | some p =>
    let o := { s.acct.openAcct with parts := tblPut s.acct.openAcct.parts d { p with recorderLost := true } }
    { s with acct := { s.acct with openAcct := o } }

/-- A state is entered where it differs from the state held (04 R85). -/
def State.districtEnter (s : State) (d : Nat) (st : DState) : State :=
  match s.district d with
  | none => s
  | some x =>
    if st = x.rt.state then s
    else
      let quiet := (st == .tracking && x.rt.state == .headShort) || (st == .headShort && x.rt.state == .tracking)
      let rt := { x.rt with state := st }
      let rt := if st = .out then
          { rt with
            settleDue := none, headShort := false
            target := if x.damaged then none else rt.target
            seg := if x.damaged then none else rt.seg }
        else rt
      let t := s.setDistrict d { x with rt := rt }
      let t := if st = .blind then t.markRecorderLost d else t
      let t := if quiet then t else t.notify .districtState (.district d) (.one (dStateCode st))
      if st = .out then t.hand [.districtOut d] else t

/-- The state is derived from Table 4.3 whatever the state held (04 R84): at a usable recorder sample, and at a write that names
another recorder station (04 R82). -/
def State.districtAfresh (s : State) (d : Nat) : State :=
  match s.district d with
  | none => s
  | some x => s.districtEnter d (s.districtState x)

/-- The state is re-derived (04 R84) with the recorder as it was and no usable sample: BLIND is left for OUT only (04 R85, R91; the
model's choice, log entry 70). -/
def State.districtDerive (s : State) (d : Nat) : State :=
  match s.district d with
  | none => s
  | some x => if x.rt.state = .blind ∧ s.districtState x ≠ .out then s else s.districtEnter d (s.districtState x)

/-! ### Head (04 R89-R91) -/

/-- The head without lift (04 R89). -/
def State.headNoLift (s : State) (r : DistrictRec) : Int := (s.draw.main : Int) + r.headGain

/-- Target + working margin exceeds a head (04 R90, 05 R108). -/
def State.isShort (s : State) (target : Nat) (head : Int) : Bool := decide (head < (target : Int) + s.yardNow.margin)

/-- What a change of head short brings (04 R91). -/
def State.headShortChange (s : State) (d : Nat) (x : District) (target : Nat) (head : Int) (short : Bool) : State :=
  let t := s.districtDerive d
  if short then
    if x.tab.boost then t.hand [.headShort d]
    else t.notify .headShort (.district d) (.one ((target : Int) + s.yardNow.margin - head))
  else t.hand [.headClear d]

/-- Head is evaluated for a district in service and not damaged (04 R90). -/
def State.headEval (s : State) (d : Nat) : State :=
  match s.district d with
  | none => s
  | some x =>
    if !x.tab.inService || x.damaged then s
    else
      let base := s.headNoLift x.tab
      let head := base + x.rt.lift
      match x.rt.target with
      | none => s.setDistrict d { x with rt := { x.rt with head := head, headStale := s.draw.mainStale } }
      | some target =>
        let short := x.rt.state != .out && s.isShort target head
        let t := (s.setDistrict d { x with rt := { x.rt with
          head := head, headStale := s.draw.mainStale, headShort := short, handed := some (target, base) } }).hand [.evaluated d]
        if short = x.rt.headShort then t else t.headShortChange d x target head short

def State.headAll (s : State) : State := s.hand (s.districts.map fun p => .headEval p.1)

/-- Booster held, booster running and booster lift are handed to the pressure unit (04 R89, R90, 05 R104-R107). -/
def State.tellBoost (s : State) (d held : Nat) (running : Bool) (lift : Nat) : State :=
  (s.modDistrict d fun rt => { rt with held := held, boosted := running, lift := lift }).hand [.headEval d]

/-! ### Reports (04 R83, R86) -/

/-- A REPORT or ALERT of a recorder station (04 R83). -/
def State.recorderReport (s : State) (d : Nat) (body : List Word) : State :=
  match s.district d with
  | none => s
  | some x =>
    if s.isLost x.tab.recorder then s
    else match recorderSample body with
      | none =>
        (s.setDistrict d { x with rt := { x.rt with
          recorderFault := true, last := x.rt.last.map fun p => { p with stale := true } } }).districtDerive d
      | some p =>
        ((s.setDistrict d { x with rt := { x.rt with
          last := some ⟨p, s.clock.day, s.clock.second, false⟩
          recorderFault := false
          minP := (match x.rt.minP with
            | some m => some (min m p)
            | none => some p)
          maxP := (match x.rt.maxP with
            | some m => some (max m p)
            | none => some p) } }).districtAfresh d).hand [.headEval d, .loop d p]

/-- A REPORT or ALERT of a governor station (04 R86). -/
def State.governorReport (s : State) (d : Nat) (body : List Word) : State :=
  s.modDistrict d fun rt =>
    match governorSample body with
    | none => { rt with governorFault := true }
    | some (pos, dir) =>
      let lim := if condLimit (condWord body) then dir else .none
      { rt with
        governorFault := false, position := some pos, limit := lim
        limitNoticed := rt.limitNoticed && lim == rt.limit }

/-! ### The governor loop (04 R92-R94) -/

/-- The draw cup indication (04 R92). -/
def State.drawCup (s : State) : Bool := s.feeding.any fun x => x.rt.state == .cup

/-- A step is considered only under these conditions (04 R92). -/
def State.stepConsidered (s : State) (x : District) : Bool :=
  x.tab.auto && s.running && (x.rt.state == .tracking || x.rt.state == .headShort) && slotFree x.slot && x.rt.settleDue.isNone
    && !x.rt.governorFault && !s.isLost x.tab.governor && !s.drawCup

/-- A step withheld at the governor's limit (04 R93). -/
def State.atLimit (s : State) (d : Nat) (x : District) (l : Limit) : State :=
  if x.rt.limitNoticed then s
  else (s.setDistrict d { x with rt := { x.rt with limitNoticed := true } }).notify .governorLimit (.district d) (.one (limitCode l))

/-- A sample offered to the loop (04 R92, R93). -/
def State.governorLoop (s : State) (d p : Nat) : State :=
  match s.district d with
  | none => s
  | some x =>
    match x.rt.target with
    | none => s
    | some t =>
      if !s.stepConsidered x then s
      else if p + x.tab.deadBand < t then
        if x.rt.state = .headShort then s
        else if x.rt.limit = .up then s.atLimit d x .up
        else s.hand [.claim (.governor d) .raise 0 .governor none]
      else if t + x.tab.deadBand < p then
        if x.rt.limit = .down then s.atLimit d x .down
        else s.hand [.claim (.governor d) .lower 0 .governor none]
      else s

/-- The outcome of a governor step (04 R94). -/
def State.governorOutcome (s : State) (d : Nat) (o : SlotOutcome) : State :=
  match s.district d with
  | none => s
  | some x =>
    if o = .done ∧ x.rt.state ≠ .out then
      s.setDistrict d { x with rt := { x.rt with settleDue := some (s.elapsed + x.tab.settle) } }
    else s

/-! ### The minute boundary (04 R87) -/

def minuteCounts (x : District) : District :=
  if x.tab.inService then
    { x with rt := { x.rt with
      shedMin := if 1 ≤ x.rt.shed then countUp x.rt.shedMin else x.rt.shedMin
      boostMin := if x.rt.boosted then countUp x.rt.boostMin else x.rt.boostMin } }
  else x

/-- The counts are kept and every target is recomputed. -/
def State.minuteNow (s : State) : State :=
  ({ s with districts := s.districts.map fun p => (p.1, minuteCounts p.2), minuteDue := false } : State).retargetAll

/-! ### Runtime values (04 R99, R100) -/

/-- 04 R99: the target and active segment with the clock UNSET at shed level 0, head with yard main pressure 0. -/
def DistrictRt.initial (r : DistrictRec) (damaged : Bool) : DistrictRt :=
  { state := .out
    seg := if damaged then none else some ⟨false, 1⟩
    target := if damaged then none else (segmentOf r ⟨false, 1⟩).map fun g => shedTarget g.setpoint 0 r.floor
    last := none, recorderFault := false, position := none, limit := .none, limitNoticed := false, governorFault := false,
    head := r.headGain, headStale := false, headShort := false, settleDue := none, shed := 0, held := 0, boosted := false, lift := 0,
    minP := none, maxP := none, shedMin := 0, boostMin := 0, handed := none }

/-- 04 R100. -/
def restartDistrict (x : District) : District := { x with rt := { x.rt with settleDue := none } }

end Sys2Proof.Machine
end

