-- ==== Sys2Proof/Machine/Boosters.lean ====
section
/-! DEFINITION. The booster and reserve unit (05 R101-R118). -/

namespace Sys2Proof.Machine

def State.modPool (s : State) (f : Pool → Pool) : State := { s with pool := f s.pool }

/-! ### Who holds what (05 R103, R108) -/

/-- The booster held by a district. -/
def State.heldBy (s : State) (d : Nat) : Option Nat :=
  match s.boosters.find? fun p => p.2.district == some d with
  | some p => some p.1
  | none => none

/-- A district stands clear by the values last handed (05 R107, R108). -/
def State.standsClear (s : State) (d : Nat) : Bool :=
  match s.district d with
  | none => false
  | some x => match x.rt.handed with
    | some (t, h) => !s.isShort t h
    | none => false

/-- A district joins the tail of the queue (05 R103). -/
def State.joinQueue (s : State) (d : Nat) : State :=
  if s.poolMode = .auto ∧ s.pool.queue.contains d = false ∧ s.heldBy d = none then
    (s.modPool fun p => { p with queue := p.queue ++ [d] }).hand [.grants]
  else s

/-- A district leaves the queue. -/
def State.leaveQueue (s : State) (d : Nat) : State := s.modPool fun p => { p with queue := setErase d p.queue }

/-- The queue sweep (05 R103). -/
def State.queueSweep (s : State) : State :=
  if s.poolMode = .auto then
    let more := (s.districts.filter fun p => p.2.rt.headShort && p.2.tab.boost && (s.heldBy p.1).isNone
      && !s.pool.queue.contains p.1).map (·.1)
    (s.modPool fun p => { p with queue := p.queue ++ more }).hand [.grants]
  else s

/-- A taken district write at the queue (05 R103). -/
def State.boostCheck (s : State) (d : Nat) : State :=
  match s.district d with
  | none => s
  | some x => if !x.tab.boost then s.leaveQueue d else if x.rt.headShort then s.joinQueue d else s

/-! ### Grants (05 R104) -/

/-- The lowest-numbered FREE booster whose slot is FREE. -/
def State.freeBooster? (s : State) : Option (Nat × Booster) :=
  (s.boosters.map (·.1)).findSome? fun b =>
    match s.booster b with
    | some x => if x.state == .free && slotFree x.slot then some (b, x) else none
    | none => none

/-- A grant, repeated while the conditions hold. -/
def State.grant (s : State) : State :=
  if s.poolMode = .auto ∧ s.running = true then
    match s.pool.queue, s.freeBooster? with
    | d :: rest, some (b, x) =>
      let t := (s.modPool fun p => { p with queue := rest }).setBooster b { x with
        state := .starting, district := some d, cause := none, sample := none }
      let u := (t.notify .boosterGranted (.booster b) (.one d)).modDistrict d fun rt =>
        { rt with held := b, boosted := false, lift := 0 }
      u.hand [.claim (.booster b) .start d .booster none, .headEval d, .grants]
    | _, _ => s
  else s

/-! ### Running, failing, stopping (05 R105-R110) -/

/-- The state a booster reaches: OUT in place of FREE or FAILED while its record is damaged (11 Table 11.1). -/
def reachedState (x : Booster) (st : BState) : BState := if x.damaged then .out else st

/-- A STARTING booster is seen running (05 R105). -/
def State.boosterRuns (s : State) (b : Nat) : State :=
  match s.booster b with
  | none => s
  | some x =>
    if x.state = .starting then
      let d := x.district.getD 0
      let t := s.setBooster b { x with state := .running }
      (t.tellBoost d b true (boosterLift x)).notify .boosterRunning (.booster b) (.one d)
    else s

/-- A district is released (05 R107): told, and put at the head of the queue where it still wants a booster: one to which
nothing was handed yet does not stand clear (log entry 31). -/
def State.releaseDistrict (s : State) (d : Nat) : State :=
  let t := s.modDistrict d fun rt => { rt with held := 0, boosted := false, lift := 0 }
  let wants := match s.district d with
    | some x => x.tab.boost && !s.standsClear d
    | none => false
  let u := if s.poolMode = .auto ∧ wants = true ∧ s.pool.queue.contains d = false then
      t.modPool fun p => { p with queue := d :: p.queue }
    else t
  u.hand [.headEval d, .grants]

def State.releaseHeld (s : State) : Option Nat → State
  | some d => s.releaseDistrict d
  | none => s.hand [.grants]

/-- A booster fails (05 R107). -/
def State.boosterFails (s : State) (b : Nat) (c : FailCause) : State :=
  match s.booster b with
  | none => s
  | some x =>
    let t := s.setBooster b { x with
      state := reachedState x .failed, district := none, releaseDue := none, stopDue := none, cause := some c }
    (t.notify .boosterFailed (.booster b) (.one (failCauseCode c))).releaseHeld x.district

/-- A booster is FREE (05 R110, R118); a stop due kept over a warm restart ends with it (the model's choice, log entry 62). -/
def State.boosterFreed (s : State) (b : Nat) : State :=
  match s.booster b with
  | none => s
  | some x =>
    (s.setBooster b { x with state := reachedState x .free, district := none, stopDue := none, releaseDue := none }
      ).releaseHeld x.district

/-- A booster STARTING or RUNNING becomes STOPPING and its district is released (05 R109, R112); a stop due that it held is made absent
(the model's choice, log entry 123). -/
def State.boosterStopping (s : State) (b : Nat) (x : Booster) : State :=
  (s.setBooster b { x with state := .stopping, district := none, releaseDue := none, stopDue := none }
    ).releaseHeld x.district

def holdsDistrict (x : Booster) : Bool := x.state == .starting || x.state == .running

/-- The run states in which a stop of this cause is made (05 R109). -/
def State.stopsNow (s : State) (c : StopCause) : Bool := s.running || (s.runState == .hold && c != .release)

/-- A booster is stopped with a cause, or its stop is due (05 R109). -/
def State.boosterStop (s : State) (b : Nat) (c : StopCause) : State :=
  match s.booster b with
  | none => s
  | some x =>
    if !holdsDistrict x then s
    else if s.stopsNow c then
      let t := s.notify .boosterStopping (.booster b) (.one (stopCauseCode c))
      (t.hand [.claim (.booster b) .stop 0 .booster none]).boosterStopping b x
    else s.setBooster b { x with stopDue := some c }

/-- "District OUT" at the booster unit (05 R103, R109): the district leaves the queue, and then the stop is made, whose release may
put it at the head again (the model's choice of the order, log entry 81). -/
def State.districtWentOut (s : State) (d : Nat) : State :=
  let t := s.leaveQueue d
  match t.heldBy d with
  | some b => t.boosterStop b .districtOut
  | none => t

/-- The outcome of a booster order (05 R105, R110). -/
def State.boosterOutcome (s : State) (b : Nat) (code : OrderCode) (o : SlotOutcome) : State :=
  match s.booster b with
  | none => s
  | some x =>
    let cause : Option FailCause := match o with
      | .refused => some .refused
      | .noReply => some .noReply
      | .allowance => some .allowance
      | .stationLost => some .stationLost
      | _ => none
    let t := match code, x.state with
      | .start, .starting => match o, cause with
        | .done, _ => s.boosterRuns b
        | _, some c => s.boosterFails b c
        | _, none => s
      | .stop, .stopping => match o, cause with
        | .done, _ => s.boosterFreed b
        | _, some _ => s.boosterFails b .stopFailed
        | _, none => s
      | _, _ => s
    t.hand [.grants]

/-! ### Reports (05 R106, R118) -/

/-- 05 Table 5.3. -/
def State.reportActs (s : State) (b : Nat) (x : Booster) (running : Bool) : State :=
  match x.state, running with
  | .free, true => s.boosterFails b .unheld
  | .starting, true => s.boosterRuns b
  | .running, false => s.boosterFails b .tripped
  | .stopping, false => s.boosterFreed b
  | _, _ => s

/-- The report that decides an undecided booster, in place of 05 Table 5.3 (05 R118); its mark is cleared already. R118 differs from
the table in one place: a STARTING booster not running is FREE. A booster that has left STARTING and STOPPING meanwhile takes the
report by the table (05 R110 where it is FREE; else the model's choice, log entry 82). -/
def State.reportDecides (s : State) (b : Nat) (x : Booster) (running : Bool) : State :=
  if x.state = .starting ∧ running = false then s.boosterFreed b else s.reportActs b x running

/-- The slot in TRAVEL is freed by the report its order asks for (05 R106, 02 R50). -/
def State.reportFrees (s : State) (b : Nat) (running : Bool) : State :=
  match s.slot (.booster b) with
  | none => s
  | some sl =>
    if sl.state = .travel ∧ ((sl.code = .start ∧ running = true) ∨ (sl.code = .stop ∧ running = false)) then
      s.endBoosterOrder b sl .done
    else s

/-- A STOPPING booster still seen running with its slot FREE has its STOP claimed again (05 R118). -/
def stopWanted (x : Booster) : Bool :=
  x.state == .stopping && x.undecided.isNone && slotFree x.slot
    && (match x.sample with
      | some (r, _) => r
      | none => false)

def State.reclaimStop (s : State) (b : Nat) : List Handoff :=
  match s.booster b with
  | some x => if s.acting && stopWanted x then [.claim (.booster b) .stop 0 .booster none] else []
  | none => []

/-- A REPORT or ALERT of a booster station (05 R106). -/
def State.boosterReport (s : State) (b : Nat) (body : List Word) : State :=
  match s.booster b with
  | none => s
  | some x =>
    if s.isLost x.tab.station then s
    else match boosterSample body with
      | none => s
      | some (running, lift) =>
        let y := { x with sample := some (running, lift), undecided := none }
        let t := s.setBooster b y
        let u := if x.undecided.isSome then t.reportDecides b y running else t.reportActs b y running
        let w := u.reportFrees b running
        w.hand (w.reclaimStop b)

/-! ### Release hold (05 R108) -/

/-- A head evaluation is handed: the release hold timer of the district's booster (05 R108). -/
def State.releaseCheck (s : State) (d : Nat) : State :=
  match s.heldBy d with
  | none => s
  | some b =>
    s.modBooster b fun x =>
      if holdsDistrict x && s.poolMode == .auto then
        if s.standsClear d then
          { x with releaseDue := if x.releaseDue.isNone then some (s.elapsed + 60 * s.yardNow.releaseHold) else x.releaseDue }
        else { x with releaseDue := none }
      else x

/-! ### Pool mode and run state (05 R102, R109, R118) -/

def State.eachBooster (s : State) (f : Nat → Booster → List Handoff) : List Handoff := s.boosters.flatMap fun p => f p.1 p.2

/-- The effects of a change to MANUAL (05 R102). -/
def State.poolManual (s : State) : State :=
  ({ s with boosters := s.boosters.map fun p => (p.1, { p.2 with releaseDue := none }) } : State).hand
    (s.eachBooster fun b x => if holdsDistrict x then [.boosterStop b .poolManual] else [])

/-- The effects of a change to AUTO (05 R102). -/
def State.poolAuto (s : State) : State :=
  s.hand (.sweep :: (s.eachBooster fun _ x => match x.district with
    | some d => if holdsDistrict x then [Handoff.evaluated d] else []
    | none => []) ++ [.grants])

/-- The stops due, as the run state becomes RUN or HOLD (05 R109, R118). -/
def State.stopsDue (s : State) : State :=
  s.hand (s.eachBooster fun b _ => [.boosterDue b])

/-- One booster's stop due, or its STOP claimed again. -/
def State.boosterDue (s : State) (b : Nat) : State :=
  match s.booster b with
  | none => s
  | some x =>
    match x.stopDue with
    | none => s.hand (s.reclaimStop b)
    | some .release =>
      if s.running then
        if (match x.district with
          | some d => s.standsClear d
          | none => false) then s.boosterStop b .release
        else s.setBooster b { x with stopDue := none }
      else s
    | some c => s.boosterStop b c

/-! ### Desk orders (05 R112) -/

/-- A desk START or STOP that has passed the gate (05 R112). The STOP of a booster STARTING or RUNNING raises no BOOSTER STOPPING, having
none of the causes of R109 to give with it (the model's choice, log entry 101). -/
def State.deskBoosterOrder (s : State) (b : Nat) (code : OrderCode) (arg : Nat) (tag : DeskRef) : State :=
  match s.booster b with
  | none => s
  | some x =>
    if s.poolMode = .auto then s.refuseOrder tag .poolOwns
    else match code with
    | .start =>
      if x.state ≠ .free ∨ slotFree x.slot = false then s.answerOrder tag .badState none
      else match s.district arg with
        | none => s.answerOrder tag .conflict none
        | some y =>
          if y.rt.state = .out ∨ (s.heldBy arg).isSome = true then s.answerOrder tag .conflict none
          else
            let t := ((s.leaveQueue arg).setBooster b { x with state := .starting, district := some arg }
              ).modDistrict arg fun rt => { rt with held := b, boosted := false, lift := 0 }
            t.hand [.claim (.booster b) .start arg .desk (some tag), .headEval arg]
    | _ =>
      let t := s.hand [.claim (.booster b) .stop 0 .desk (some tag)]
      if holdsDistrict x then
        let u := s.boosterStopping b x
        u.hand [.claim (.booster b) .stop 0 .desk (some tag)]
      else t

/-! ### Reserve (05 R113-R115) -/

/-- A holder counted in usable stock (05 R113). -/
def countedState : HState → Bool
  | .out | .fault | .blind => false
  | _ => true

/-- 05 R113. -/
def State.usableStock (s : State) : Nat :=
  s.holders.foldl (fun acc p => if countedState p.2.rt.state then acc + (p.2.rt.stock - p.2.rt.reserveStock) else acc) 0

def markOf (r : YardRec) : Nat → Nat
  | 1 => r.mark1
  | 2 => r.mark2
  | 3 => r.mark3
  | _ => 0

def cutOf (r : YardRec) : Nat → Nat
  | 1 => r.cut1
  | 2 => r.cut2
  | 3 => r.cut3
  | _ => 0

/-- The number of marks that a stock lies below (05 R114). -/
def levelFor (r : YardRec) (stock : Nat) : Nat := ([1, 2, 3].filter fun i => decide (stock < markOf r i)).length

/-- The condition under which level `l` recovers (05 R114). -/
def recovers (r : YardRec) (l stock : Nat) : Bool := decide (1 ≤ l ∧ markOf r l + r.hyst ≤ stock)

/-- The recovery timer at an evaluation at an unchanged level (05 R114). -/
def State.recoveryAfter (s : State) (l : Nat) (running : Option Nat) : Option Nat :=
  if recovers s.yardNow l s.pool.usable then
    match running with
    | some t => some t
    | none => some (s.elapsed + 60 * s.yardNow.recovery)
  else none

/-- The reserve level changes (05 R114). -/
def State.setLevel (s : State) (l : Nat) : State :=
  let t := s.modPool fun p => { p with level := l, recoveryDue := s.recoveryAfter l none }
  let u : State := { t with flags := setFlag t.flags 6 (decide (1 ≤ l)) }
  (u.notify .reserveLevel .none (.pair (l * 256 + s.pool.usable / 65536 % 256) (s.pool.usable % 65536))).hand [.shedAll]

/-- The level evaluation (05 R114). -/
def State.levelEval (s : State) : State :=
  if s.pool.judged then
    let target := levelFor s.yardNow s.pool.usable
    if s.pool.level < target then s.setLevel target
    else s.modPool fun p => { p with recoveryDue := s.recoveryAfter p.level p.recoveryDue }
  else s

/-- The reserve becomes judged when no in-service holder is OUT (05 R114, R117). -/
def State.nowJudged (s : State) : Bool := s.pool.judged || s.holders.all fun p => !p.2.tab.inService || p.2.rt.state != .out

/-- Usable stock is recomputed at a hand-off of the holder unit (05 R113; log entry 30). -/
def State.usableNow (s : State) : State :=
  let j := s.nowJudged
  (s.modPool fun p => { p with judged := j, usable := s.usableStock }).levelEval

/-- The shed level a district's rank gives (05 R115). -/
def shedLevel (r : YardRec) (level rank : Nat) : Nat :=
  (([1, 2, 3].filter fun i => decide (i ≤ level ∧ cutOf r i < rank)).getLast?).getD 0

/-- The shed evaluation of one district (05 R115). -/
def State.shedEval (s : State) (d : Nat) : State :=
  match s.district d with
  | none => s
  | some x =>
    let l := if x.tab.inService && !x.damaged then shedLevel s.yardNow s.pool.level x.tab.rank else 0
    if l = x.rt.shed then s
    else ((s.setDistrict d { x with rt := { x.rt with shed := l } }).notify .shedChange (.district d) (.one l)).hand [.target d]

def State.shedAll (s : State) : State := s.hand (s.districts.map fun p => .shed p.1)

/-! ### Writes and values at restart (05 R101, R117, R118) -/

def checkBooster (r : BoosterRec) : EntryCheck :=
  checkEntry [(0, inRange 1 199 r.station), (2, inRange 50 300 r.lift), (3, inRange 30 600 r.allowance)] true

/-- 05 R117. -/
def Booster.initial (r : BoosterRec) (damaged : Bool) : Booster :=
  { tab := r, damaged := damaged, state := if r.inService && !damaged then .free else .out, district := none, releaseDue := none,
    stopDue := none, cause := none, sample := none, undecided := none, slot := Slot.free }

/-- What a taken write makes of the booster's state (05 R101). -/
def writtenState (inService : Bool) (st : BState) : BState :=
  match inService, st with
  | false, .free | false, .failed => .out
  | true, .out => .free
  | _, x => x

/-- 05 R118: one booster at a warm restart. -/
def restartBooster (now : Nat) (x : Booster) : Booster :=
  { x with
    releaseDue := none
    undecided := if x.state = .starting ∨ x.state = .stopping then some (now + boosterAllowance x) else x.undecided }

end Sys2Proof.Machine
end

