-- ==== Sys2Proof/Machine/Accounts.lean ====
section
/-! DEFINITION. The account unit (06 R119-R136): meters, the open account, intervals, the ring. -/

namespace Sys2Proof.Machine

def State.modAcct (s : State) (f : Account → Account) : State :=
  { s with acct := { s.acct with openAcct := f s.acct.openAcct } }

/-! ### Parts of the open account -/

/-- The part of meter `n`: the make part for 0, else the entry of the district. -/
def partOf (a : Account) (n : Nat) : Option Part := if n = 0 then some a.make else tblGet a.parts n

def setPart (a : Account) (n : Nat) (p : Part) : Account :=
  if n = 0 then { a with make := p } else { a with parts := tblPut a.parts n p }

def State.modPart (s : State) (n : Nat) (f : Part → Part) : State :=
  s.modAcct fun a =>
    match partOf a n with
    | some p => setPart a n (f p)
    | none => a

/-- A 48-bit count after a sum; past its range the manual gives no value (06 Table 6.1; log entry 27). -/
def sumCount (free a b : Nat) : Nat := if a + b < 281474976710656 then a + b else (Config.freeCount free).toNat

/-! ### Meters (06 R119-R124) -/

def checkMeter (weight limit : Nat) : EntryCheck :=
  checkEntry [(0, inRange 1 10000 weight), (1, inRange 1 65535 limit)] true

/-- The station of a meter entry becomes another, or absent (06 R120); absent it is not lost (the model's choice, log entry 90). -/
def State.setMeterStation (s : State) (n : Nat) (st : Option Nat) : State :=
  let m := s.meter n
  if m.station = st then s
  else s.setMeter n { m with
    station := st, last := none, carry := false
    lost := (match st with
      | some x => s.isLost x
      | none => false) }

/-- Counts and volume credited to a part (06 R123). -/
def creditPart (free counts volume : Nat) (carried : Bool) (p : Part) : Part :=
  { p with
    counts := sumCount free p.counts counts
    volume := min Config.volumeMax (p.volume + volume)
    volumeHeld := p.volumeHeld || decide (Config.volumeMax < p.volume + volume)
    carried := p.carried || carried }

/-- An accepted delta (06 R123). -/
def State.creditDelta (s : State) (n : Nat) (m : Meter) (total delta : Nat) (restarted : Bool) : State :=
  let sum := delta * m.weight + m.residue
  let t := s.setMeter n { m with
    last := some total, residue := sum % 100, carry := false, accepted := sumCount s.free m.accepted delta }
  { t.modPart n (creditPart (s.free + 1) delta (sum / 100) (m.carry || restarted)) with free := s.free + 2 }

/-- A delta beyond the plausibility limit (06 R122). -/
def State.rejectDelta (s : State) (n : Nat) (m : Meter) (total delta : Nat) : State :=
  ({ s.setMeter n { m with last := some total, rejected := sumCount s.free m.rejected delta } with free := s.free + 1 }).notify
    .meterImplausible (.meter n) (.one (min 65535 delta))

/-- A usable meter sample (06 R122). -/
def State.meterTotal (s : State) (n total : Nat) (restarted : Bool) : State :=
  let m := s.meter n
  match m.last with
  | none => s.setMeter n { m with last := some total, carry := false }
  | some p =>
    let delta := if restarted then total else (total + Config.totalModulus - p) % Config.totalModulus
    if m.limit < delta then s.rejectDelta n m total delta else s.creditDelta n m total delta restarted

/-- A REPORT or ALERT of a meter station (06 R121); a damaged entry ignores it (11 Table 11.1). -/
def State.meterReport (s : State) (n : Nat) (body : List Word) : State :=
  let m := s.meter n
  if m.lost then s
  else match meterSample body with
    | none => s
    | some total =>
      if m.damaged then s.setMeter n { m with carry := true }
      else s.meterTotal n total (condRestarted (condWord body))

/-- The meter's station is declared lost (06 R124). -/
def State.meterLost (s : State) (n : Nat) : State :=
  (s.setMeter n { s.meter n with lost := true, carry := true }).modPart n fun p => { p with meterLost := true }

/-- The meter's station is found (06 R124). -/
def State.meterFound (s : State) (n : Nat) : State := s.setMeter n { s.meter n with lost := false }

/-- The meter entry of a binding. -/
def meterOf : Option Binding → Option Nat
  | some (.meter d) => some d
  | some .makeMeter => some 0
  | _ => none

/-! ### Stock takings (06 R126) -/

def State.stockSum (s : State) : Nat :=
  s.holders.foldl (fun acc p =>
    if p.2.tab.inService && p.2.rt.state != .blind && p.2.rt.height.isSome then acc + p.2.rt.stock else acc) 0

def State.stockClean (s : State) : Bool :=
  s.holders.all fun p => !p.2.tab.inService || (p.2.rt.state != .blind && p.2.rt.height.isSome && !p.2.rt.stale)

/-- An in-service holder enters BLIND while the account is open (06 R126). -/
def State.markHolderBlind (s : State) (h : Nat) : State :=
  match s.holder h with
  | some x => if x.tab.inService && x.rt.state == .blind then s.modAcct fun a => { a with holderBlind := true } else s
  | none => s

/-! ### Intervals (06 R127, R128) -/

/-- The first boundary after now, by a length: aligned to the clock while it is SET, else a length from now. -/
def State.firstDue (s : State) (length : Nat) : Nat :=
  if s.clock.set then s.elapsed + (60 * length - s.clock.second % (60 * length)) else s.elapsed + 60 * length

/-- A SET CLOCK at the account unit (06 R128). -/
def State.acctClockSet (s : State) : State :=
  s.modAcct fun a => { a with clockChanged := true, closeDue := s.firstDue a.length }

/-! ### Opening and closing (06 R129-R132) -/

def State.openPart (s : State) (d : Nat) (x : District) : Part :=
  { Part.zero with meterLost := (s.meter d).lost, recorderLost := x.rt.state == .blind }

/-- The account opened (06 R130). -/
def State.openAccount (s : State) (number stock : Nat) (clean : Bool) : Account :=
  let length := s.yardNow.interval
  { number := number
    start := if s.clock.set then some (s.clock.day, s.clock.second / 60) else none
    startSecond := s.elapsed, length := length, closeDue := s.firstDue length, merged := 0, stockOpen := stock, openClean := clean,
    clockUnset := !s.clock.set, clockChanged := false, holderBlind := !clean, balanceOut := false,
    make := { Part.zero with meterLost := (s.meter 0).lost }
    parts := s.districts.map fun p => (p.1, s.openPart p.1 p.2) }

/-- Elapsed minutes of the account so far, rounded up (06 R129). -/
def State.acctLength (s : State) : Nat := max 1 (min 65535 ((s.elapsed - s.acct.openAcct.startSecond + 59) / 60))

/-- The entry of one district: with the interval figures while in service, or where its counts are not 0 (06 R129). -/
def State.recordEntry (s : State) (p : Nat × Part) : Option RecordEntry :=
  match s.district p.1 with
  | some x =>
    if x.tab.inService then some ⟨p.1, p.2, x.rt.minP, x.rt.maxP, x.rt.shedMin, x.rt.boostMin⟩
    else if p.2.counts = 0 then none else some ⟨p.1, p.2, none, none, 0, 0⟩
  | none => if p.2.counts = 0 then none else some ⟨p.1, p.2, none, none, 0, 0⟩

/-- The record of the open account (06 R129, Table 6.7). -/
def State.recordOf (s : State) (stockClose : Option Nat) (discrepancy : Option Int) : AccountRecord :=
  let a := s.acct.openAcct
  { number := a.number, start := a.start, length := s.acctLength, merged := a.merged, clockUnset := a.clockUnset,
    clockChanged := a.clockChanged, holderBlind := a.holderBlind, balanceOut := a.balanceOut, make := a.make,
    stockOpen := a.stockOpen, stockClose := stockClose, discrepancy := discrepancy, entries := a.parts.filterMap s.recordEntry }

/-- The discrepancy of a close, absent unless both takings are clean and no volume is held (06 R129 step 2). -/
def discrepancyOf (a : Account) (stock : Nat) (clean : Bool) : Option Int :=
  if a.openClean && clean && !a.make.volumeHeld && a.parts.all fun p => !p.2.volumeHeld then
    some ((a.stockOpen : Int) + a.make.volume - (a.parts.foldl (fun acc p => acc + p.2.volume) 0 : Nat) - stock)
  else none

/-- Step 3 of 06 R129. -/
def State.balance (s : State) (d : Option Int) : State :=
  match d with
  | none => s
  | some x =>
    if s.yardNow.tolerance < x.natAbs then
      (s.modAcct fun a => { a with balanceOut := true }).notify .balanceOut (.interval s.acct.openAcct.number)
        (.one (max (-32768) (min 32767 x)))
    else s

/-- The pressure unit's figures are reset (04 R97). -/
def resetFigures (x : District) : District := { x with rt := { x.rt with minP := none, maxP := none, shedMin := 0, boostMin := 0 } }

/-- The number after an interval number; past its range the manual gives none (log entry 27). -/
def nextInterval (free n : Nat) : Nat := if n + 1 < 4294967296 then n + 1 else (Config.freeInterval free).toNat

/-- The record appended, with RING HALF on the rise from 63 to 64 (06 R132). -/
def State.append (s : State) (r : AccountRecord) : State :=
  let t : State := { s with acct := { s.acct with ring := s.acct.ring ++ [r], mergeRun := false } }
  if t.acct.ring.length = 64 then
    t.notify .ringHalf (.interval ((t.acct.ring.head?.map (·.number)).getD 0)) .absent
  else t

/-- The account is closed into a record and the next one opened (06 R129, R130). -/
def State.closeAccount (s : State) : State :=
  let stock := s.stockSum
  let clean := s.stockClean
  let t := if clean then s else s.modAcct fun a => { a with holderBlind := true }
  let d := discrepancyOf t.acct.openAcct stock clean
  let u := t.balance d
  let r := u.recordOf (some stock) d
  let v := ({ u with districts := u.districts.map fun p => (p.1, resetFigures p.2) } : State).append r
  let number := nextInterval v.free r.number
  { v with acct := { v.acct with openAcct := v.openAccount number stock clean }, free := v.free + 1 }

/-- The account is merged (06 R131). -/
def State.mergeAccount (s : State) : State :=
  let t := s.modAcct fun a => { a with merged := satAdd 255 a.merged 1, closeDue := a.closeDue + 60 * a.length }
  if s.acct.mergeRun then t
  else ({ t with acct := { t.acct with mergeRun := true } } : State).notify .ringFull (.interval s.acct.openAcct.number) .absent

/-- The open account has reached its close due (06 R129, R131). -/
def State.accountDue (s : State) : State :=
  if s.acct.ring.length < Config.ringCap then s.closeAccount else s.mergeAccount

/-! ### Reading (06 R133, R134) -/

def three (n : Nat) : List Nat := [n / 4294967296 % 65536, n / 65536 % 65536, n % 65536]

def signedTwo (i : Int) : List Nat := two (i % 4294967296).toNat

/-- The yard part in 19 words (06 Table 6.7; log entry 12); its flags stand from bit 0 up (the model's choice, log entry 63). -/
def yardPart (r : AccountRecord) : List Nat :=
  two r.number ++ (match r.start with
    | some (d, m) => [d, m]
    | none => [0, 0])
  ++ [r.length, r.merged,
      bits [r.clockUnset, r.clockChanged, r.holderBlind, r.balanceOut, r.make.meterLost, r.make.carried, r.make.volumeHeld,
        r.discrepancy.isSome]]
  ++ three r.make.counts ++ two r.make.volume ++ two r.stockOpen ++ two (r.stockClose.getD 0)
  ++ signedTwo (r.discrepancy.getD 0) ++ [r.entries.length]

def pressureWord : Option Nat → Nat
  | some p => p
  | none => 65535

/-- A district entry in 10 words (06 Table 6.7; log entry 12); the district shares a word with the flags, in its high byte (the
model's choice, log entry 63). -/
def entryPart (e : RecordEntry) : List Nat :=
  [e.district * 256 + bits [e.part.meterLost, e.part.carried, e.part.volumeHeld, e.part.recorderLost]]
  ++ three e.part.counts ++ two e.part.volume ++ [pressureWord e.minP, pressureWord e.maxP, e.shedMin, e.boostMin]

/-- One part of a record (06 R133). -/
def accountPart (r : AccountRecord) (part : Nat) : List Nat :=
  if part = 0 then yardPart r else ((r.entries.drop (2 * (part - 1))).take 2).flatMap entryPart

/-- The number of records held and the oldest interval number (06 R133): 0 when none is held (the model's choice, log entry 102). -/
def State.ringWords (s : State) : List Nat :=
  s.acct.ring.length :: two ((s.acct.ring.head?.map (·.number)).getD 0)

end Sys2Proof.Machine
end

