-- ==== Sys2Proof/Machine/Exchanges.lean ====
section
/-! DEFINITION. Exchanges (07 R145-R147, R151-R153), the hand-off of replies and alerts (08 R170, R171), forwarding of desk
telegrams (08 R166-R169). -/

namespace Sys2Proof.Machine

/-! ### Owners of roles (08 Table 8.4) -/

def isSample (k : Kind) : Bool := k == .report || k == .alert

/-- A telegram handed to the owner of its source's role (08 R170 step 3). -/
def State.owner (s : State) (t : Telegram) : State :=
  match s.bindingOf t.src, isSample t.kind with
  | some (.gauge h), true => s.gaugeReport h t.body
  | some (.valve v), true => s.valveReport v t.body
  | some (.valve v), false => s.valveAckWord v t.body
  | some (.governor d), true => s.governorReport d t.body
  | some (.recorder d), true => s.recorderReport d t.body
  | some (.meter d), true => s.meterReport d t.body
  | some .makeMeter, true => s.meterReport 0 t.body
  | some (.booster b), true => s.boosterReport b t.body
  | _, _ => s

/-- "Station lost" handed to the owner of its role (09 R186, Table 9.5). -/
def State.ownerLost (s : State) (station : Nat) : State :=
  match s.bindingOf station with
  | some (.gauge h) => s.gaugeLost h
  | some (.recorder d) => s.districtDerive d
  | some (.meter d) => s.meterLost d
  | some .makeMeter => s.meterLost 0
  | _ => s

/-! ### Relay to the desk (08 R171) -/

def State.watchClass (s : State) (station : Nat) : Option RelayClass :=
  match s.entry station with
  | some e => if e.watch then some .watch else none
  | none => none

/-- The class of a reply (08 R171); a poll of the part is a COPY by the copy setting with which it was placed (09 R177; the model's
choice where its entry is disabled or emptied meanwhile, log entry 106). -/
def State.replyClass (s : State) (e : Exchange) : Option RelayClass :=
  match e.what with
  | .copy _ | .unbound _ => some .reply
  | .order t _ => match s.slot t with
    | some sl => if sl.origin = .desk then some .reply else s.watchClass e.station
    | none => s.watchClass e.station
  | .poll p => if p.copy then some .copy else s.watchClass e.station

/-- A relayed telegram enters the desk transmit queue (07 R150). -/
def State.relayOut (s : State) (c : RelayClass) (l : FLine) (t : Telegram) : State :=
  { s with desk := placeOther (.relayed c l t) s.desk }

/-- A transmission that the part originated to a watched station (08 R171). -/
def State.watchOut (s : State) (l : FLine) (o : Outgoing) (t : Telegram) : State :=
  let own : Bool := match o with
    | .poll _ => true
    | .order tg _ => (match s.slot tg with
      | some sl => sl.origin != .desk
      | none => true)
    | _ => false
  match s.watchClass t.dest with
  | some c => if own then s.relayOut c l t else s
  | none => s

/-! ### Ends of exchanges (07 R147) -/

/-- A desk exchange whose telegram had learn-inhibit set (08 R159). -/
def State.inhibits (s : State) : Outgoing → Bool
  | .copy c => c.tel.learnInhibit
  | .unbound t => t.learnInhibit
  | .order t _ => (match s.slot t with
    | some sl => sl.origin == .desk && (match sl.tag with
      | some g => g.inhibit
      | none => false)
    | none => false)
  | .poll _ => false

def State.lessAllowance (s : State) : State := { s with relay := { s.relay with allowance := s.relay.allowance - 1 } }

/-- A reply to a poll at the poll sequencer (09 R182, R184, R185); a meter found has its lost flag cleared (06 R124). -/
def State.pollReply (s : State) (station : Nat) (cond : Word) : State :=
  let lost := s.isLost station
  let t := (s.pollGood station cond).conditions station cond
  match lost, meterOf (s.bindingOf station) with
  | true, some n => t.meterFound n
  | _, _ => t

/-- The reply to one copy of a desk poll (08 R167); a later reply gives no second outcome (log entry 43). -/
def State.copyReply (s : State) (l : FLine) (c : DeskCopy) (cond : Word) : State :=
  match c.flood.bind s.flood with
  | none => s.pollReply c.tel.dest cond
  | some f => if f.replied then (s.floodReply f l).heardConditions c.tel.dest cond else (s.floodReply f l).pollReply c.tel.dest cond

/-- One copy of a desk poll ended without reply (08 R167). -/
def State.copyFailed (s : State) (l : FLine) (c : DeskCopy) (o : PollOutcome) : State :=
  match c.flood.bind s.flood with
  | none => s.pollFailed l c.tel.dest o false
  | some f =>
    let rest := f.copies.filter (· != l)
    let t := s.setFlood { f with copies := rest }
    if f.replied || !rest.isEmpty then t else t.pollFailed l c.tel.dest o false

/-- The result of a check for the valve bound to a station (09 R187). It goes by the directory's binding of the station polled: where
start-up left a valve's binding out, its check polled is never judged and its slot stays in TRAVEL (the model's choice, log entry
120). -/
def State.checkResult (s : State) (e : Exchange) (r : CheckResult) : List Handoff :=
  if e.check then
    match s.bindingOf e.station with
    | some (.valve v) => [.judge v r]
    | _ => []
  else []

def ackResult (body : List Word) : OrderEnd :=
  match body with
  | _ :: r :: _ => match ackOfNum r.toNat with
    | some a => .ack a
    | none => .noReply
  | _ => .noReply

/-- Step 2 of 08 R170: the outcome of a reply goes to its party. -/
def State.replyParty (s : State) (l : FLine) (e : Exchange) (t : Telegram) : State :=
  match e.what with
  | .order tg _ => s.hand [.orderEnded tg (ackResult t.body)]
  | .unbound _ => s.lessAllowance
  | .copy c => s.copyReply l c (condWord t.body)
  | .poll p =>
    let u := s.pollReply e.station (condWord t.body)
    if p.search then u.searchDone p else u

/-- The exchange ends GOOD-REPLY (07 R147, R151, 08 R170). -/
def State.endGood (s : State) (l : FLine) (e : Exchange) (t : Telegram) : State :=
  let s1 := (s.modLine l fun u => clearRun { u with exch := none }).learn (s.inhibits e.what) l t.src
  let relay : List Handoff := match s1.replyClass e with
    | some c => [.relayOut c l t]
    | none => []
  let s2 := s1.replyParty l e t
  s2.hand (s2.checkResult e (valveSample t.body) ++ [.owner t] ++ relay ++ [.lineIdle l])

/-- The outcome of an exchange ended without reply (07 R147). -/
def failOutcome (quarantined : Bool) (f : AttemptFailure) : PollOutcome :=
  if quarantined then .quarantined
  else match f with
    | .noResponse => .noResponse
    | .format => .format

/-- The exchange ends without reply (07 R147). -/
def State.endFailed (s : State) (l : FLine) (e : Exchange) : State :=
  let o := failOutcome (s.line l).quarantined e.last
  let t := s.modLine l fun u => { u with exch := none }
  let u := match e.what with
    | .order tg _ => t.hand [.orderEnded tg .noReply]
    | .unbound _ => t.lessAllowance
    | .copy c => t.copyFailed l c o
    | .poll p => t.pollFailed l e.station o p.search
  u.hand (u.checkResult e none ++ [.lineIdle l])

/-- An attempt fails (07 R146); while a repeat is due none is under way, and a telegram of the awaited station and tag of another kind or
form fails none either (the model's choice, log entry 91). -/
def State.attemptFails (s : State) (l : FLine) (e : Exchange) (f : AttemptFailure) : State :=
  if e.repeatDue then s
  else
    let t := s.failAttempt l e.station
    let e' := { e with deadline := none, last := f }
    if e.left = 0 then (t.modLine l fun u => { u with exch := some e' }).endFailed l e'
    else t.modLine l fun u => { u with exch := some { e' with repeatDue := true } }

/-- An ALERT at the chatter limit, and its processing within the budget (07 R153, 08 R170). -/
def State.alertTaken (s : State) (l : FLine) (t : Telegram) : State :=
  let u := s.line l
  let n := u.alerts + 1
  if n ≤ u.budget then
    ((((s.setLine l { u with alerts := n }).learn false l t.src).heardConditions t.src (condWord t.body)).hand
      [.owner t, .relayOut .alert l t])
  else s.setLine l (countLine (fun c => { c with chatter := countUp c.chatter }) { u with alerts := n })

/-- The line enters IDLE and selects (07 R147, R149). -/
def State.lineIdle (s : State) (l : FLine) : State := s.modLine l enterIdle

/-! ### Sending (07 R145) -/

/-- The slot of an order that the line sends becomes SENT (02 R31). -/
def State.markSent (s : State) : Outgoing → State
  | .order t _ => match s.slot t with
    | some sl => s.setSlot t { sl with state := .sent }
    | none => s
  | _ => s

def countOut : LineUnit → LineUnit := countLine fun c => { c with telegramsOut := countUp c.telegramsOut }

/-- The repeat that is due is sent (07 R146). -/
def State.sendRepeat (s : State) (l : FLine) (e : Exchange) : State :=
  s.modLine l fun u => countOut { u with
    mode := .sending
    sending := some (e.what, { e.sent with rept := true })
    exch := some { e with repeatDue := false, left := e.left - 1 } }

/-- The telegram selected is sent (07 R145). -/
def State.sendSelected (s : State) (l : FLine) (o : Outgoing) : State :=
  match s.telegramOf (s.line l) o with
  | some t => (s.modLine l fun u => countOut { u with mode := .sending, selected := none, sending := some (o, t) }).markSent o
  | none => s.modLine l fun u => wakeUnit { u with selected := none }

/-- The transmission ends (07 R145): an exchange opens, or goes on with a new deadline, or the line is IDLE. -/
def State.sendEnds (s : State) (l : FLine) (o : Outgoing) (t : Telegram) : State :=
  let s1 := s.watchOut l o t
  let u := s1.line l
  match u.exch with
  | some e => s1.setLine l { u with
      mode := .awaiting, sending := none, exch := some { e with deadline := some (Config.replyTimeout e.cls) } }
  | none =>
    if opensExchange t then
      s1.setLine l { u with mode := .awaiting, sending := none, exch := some (s1.openExchange o t), tag := (u.tag + 1) % 256 }
    else
      let s2 := match o with
        | .copy c => if c.tel.order && decide (1 ≤ c.tel.dest ∧ c.tel.dest ≤ 199) then s1.lessAllowance else s1
        | _ => s1
      s2.lineIdle l

/-! ### Desk telegrams to the field (08 R166-R169) -/

/-- The order code of a desk ORDER; one with no body word reads as code 0, which no role admits (the model's choice, log entry 59). -/
def orderWord (t : DeskTelegram) : Nat :=
  match t.body with
  | c :: _ => c.toNat
  | [] => 0

/-- The argument of a desk ORDER; a START without one reads as 0, which is out of range (the model's choice, log entry 59). -/
def argWord (t : DeskTelegram) : Nat :=
  match t.body with
  | _ :: a :: _ => a.toNat
  | _ => 0

/-- What an order keeps of the desk telegram that asks for it. -/
def deskRef (t : DeskTelegram) : DeskRef := ⟨t.tag, t.learnInhibit, t.dest, t.body⟩

/-- The request code of the part's own answer to a relayed telegram (10 R193). -/
def relayedCode (t : DeskTelegram) : Nat := if t.order then codeRelayedOrder else codeRelayedPoll

def State.answerDesk (s : State) (t : DeskTelegram) (r : Result) (why : Option Reason) : State :=
  s.answerRelayed t.tag (relayedCode t) r why t.dest

/-- A desk telegram refused BUSY adds to the desk drops of each full line (07 R148). -/
def State.refuseBusy (s : State) (t : DeskTelegram) (full : List FLine) : State :=
  (full.foldl (fun acc l => acc.modLine l (countLine fun c => { c with deskDrops := countUp c.deskDrops })) s).answerDesk t .busy none

def State.fullLines (s : State) (ls : List FLine) : List FLine := ls.filter fun l => q1Full (s.line l)

/-- One copy in Q1 of each line. -/
def State.placeCopies (s : State) (t : DeskTelegram) (flood : Option Nat) (ls : List FLine) : State :=
  ls.foldl (fun acc l => acc.place l (placeQ1 ⟨t, flood⟩)) s

/-- The lines of a desk telegram to a station (08 R166). -/
def State.pollLines (s : State) (t : DeskTelegram) : List FLine :=
  if !(forcedLines t).isEmpty then forcedLines t
  else match s.stationLine t.dest with
    | some l => [l]
    | none => allLines

/-- A desk POLL to a station (08 R166). -/
def State.forwardPoll (s : State) (t : DeskTelegram) : State :=
  let ls := s.pollLines t
  let full := s.fullLines ls
  if !full.isEmpty then s.refuseBusy t full
  else if t.replyExpected && 2 ≤ ls.length then
    let id := s.relay.nextFlood
    let r := { s.relay with floods := s.relay.floods ++ [⟨id, t.dest, t.tag, ls, false⟩], nextFlood := id + 1 }
    ({ s with relay := r } : State).placeCopies t (some id) ls
  else s.placeCopies t none ls

/-- A desk ORDER to a BOUND station (02 R45, 08 R168). -/
def State.forwardBound (s : State) (t : DeskTelegram) (b : Binding) : State :=
  match orderOfNum (orderWord t) with
  | none => s.answerDesk t .bad none
  | some c =>
    if !orderAdmitted b c then s.answerDesk t .bad none
    else if c = .start ∧ inRange 1 8 (argWord t) = false then s.answerDesk t .bad none
    else match b with
      | .valve v => s.deskValveOrder v c (deskRef t)
      | .governor d => s.deskGovernorOrder d c (deskRef t)
      | .booster n => s.deskBoosterOrder n c (argWord t) (deskRef t)
      | _ => s

/-- The line of a desk ORDER to a station not bound (08 R168): a line, or the refusal. -/
def State.orderLine (s : State) (t : DeskTelegram) : Except (Result × Option Reason) FLine :=
  match forcedLines t with
  | [l] => .ok l
  | [] => match s.stationLine t.dest with
    | some l => .ok l
    | none => .error (.refused, some .unknownStation)
  | _ => .error (.bad, none)

/-- A desk ORDER to a station not bound (08 R168, 02 R48). -/
def State.forwardUnbound (s : State) (t : DeskTelegram) : State :=
  if !inRange 1 15 (orderWord t) then s.answerDesk t .bad none
  else match s.orderLine t with
  | .error (r, why) => s.answerDesk t r why
  | .ok l =>
    if Config.allowanceCap ≤ s.relay.allowance then s.answerDesk t .refused (some .allowance)
    else
      let u : State := { s with relay := { s.relay with allowance := s.relay.allowance + 1 } }
      if t.replyExpected then u.place l (placeQ0 (.desk t))
      else if q1Full (s.line l) then s.refuseBusy t [l]
      else u.place l (placeQ1 ⟨t, none⟩)

/-- The lines of a desk telegram to a group or the all-call (08 R169). -/
def State.groupLines (s : State) (t : DeskTelegram) : List FLine :=
  if !(forcedLines t).isEmpty then forcedLines t
  else if t.dest = 255 then allLines
  else allLines.filter fun l => s.dir.any fun p => p.2.line == some l && p.2.groups.getLsbD (t.dest - 200)

/-- A desk telegram to a group or the all-call (08 R169; log entry 49). -/
def State.forwardGroup (s : State) (t : DeskTelegram) : State :=
  if t.order && inRange 1 7 (orderWord t) then s.answerDesk t .refused (some .groupOrder)
  else if t.order && !inRange 8 15 (orderWord t) then s.answerDesk t .bad none
  else
    let ls := s.groupLines t
    let full := s.fullLines ls
    if ls.isEmpty then s.answerDesk t .refused (some .unknownStation)
    else if !full.isEmpty then s.refuseBusy t full
    else s.placeCopies t none ls

/-- A desk telegram that no party takes (07 R144). -/
def State.deskStray (s : State) : State :=
  { s with desk := { s.desk with counters := { s.desk.counters with strays := countUp s.desk.counters.strays } } }

/-- A desk POLL or ORDER at the relay unit (08 Table 8.3). -/
def State.forward (s : State) (t : DeskTelegram) : State :=
  if inRange 1 199 t.dest then
    if t.order then
      match s.bindingOf t.dest with
      | some b => s.forwardBound t b
      | none => s.forwardUnbound t
    else s.forwardPoll t
  else if inRange 200 211 t.dest || t.dest == 255 then s.forwardGroup t
  else s.deskStray

/-- The desk request and relay units take a telegram only while an ANSWER finds room (07 R144). -/
def State.deskServes (s : State) : Bool := s.desk.tx.length < Config.deskTxCap

end Sys2Proof.Machine
end

