-- ==== Sys2Proof/Machine/TableMemory.lean ====
section
/-! DEFINITION. The table memory and store unit (11 R208-R213): guarded records, damage, the store image, start-up. -/

namespace Sys2Proof.Machine

def State.modMem (s : State) (f : TableMem → TableMem) : State := { s with mem := f s.mem }

/-! ### Guarded records (11 R208) -/

def heldIn {α : Type} (t : Tbl α) (n : Nat) : Bool := (tblGet t n).isSome

/-- Every guarded record, by table code and index (11 R210; log entry 33 places the two modes). -/
def State.guarded (s : State) : List RecordRef :=
  (s.holders.map fun p => .holder p.1) ++ (s.valves.map fun p => .valve p.1) ++ (s.districts.map fun p => .district p.1)
  ++ [.poolMode] ++ (s.boosters.map fun p => .booster p.1) ++ ((List.range 9).map .meter) ++ [.yard] ++ (allLines.map .line)
  ++ ((List.range 48).map fun i => .poll (i + 1)) ++ (s.dir.map fun p => .directory p.1)
  ++ ((List.range 24).map .turnWork) ++ ((List.range 24).map .turnPend) ++ [.draw, .drawMode]

def turnDamaged (ts : List Turn) (i : Nat) : Bool :=
  match ts[i]? with
  | some t => t.damaged
  | none => false

/-- A record's damage mark. -/
def State.isDamaged (s : State) : RecordRef → Bool
  | .holder n => (match s.holder n with
    | some x => x.damaged
    | none => false)
  | .valve n => (match s.valve n with
    | some x => x.damaged
    | none => false)
  | .district n => (match s.district n with
    | some x => x.damaged
    | none => false)
  | .booster n => (match s.booster n with
    | some x => x.damaged
    | none => false)
  | .meter n => (s.meter n).damaged
  | .yard => s.yardDamaged
  | .line l => (s.line l).damaged
  | .poll n => (match s.poll n with
    | some p => p.damaged
    | none => s.pollHoles.contains n)
  | .directory n => (match s.entry n with
    | some e => e.damaged
    | none => false)
  | .turnWork i => turnDamaged s.fill.work i
  | .turnPend i => turnDamaged s.fill.pend i
  | .draw => s.draw.recDamaged
  | .drawMode => s.draw.modeDamaged
  | .poolMode => s.pool.modeDamaged

def markTurn (ts : List Turn) (i : Nat) : List Turn :=
  ts.zipIdx.map fun p => if p.2 = i then { p.1 with damaged := true } else p.1

/-- A record is marked damaged. A yard record's make meter station is then the one bound, and the meter entry takes it where it is
another (06 R120, Table 11.1). -/
def State.markDamaged (s : State) : RecordRef → State
  | .holder n => match s.holder n with
    | some x => s.setHolder n { x with damaged := true }
    | none => s
  | .valve n => match s.valve n with
    | some x => s.setValve n { x with damaged := true }
    | none => s
  | .district n => match s.district n with
    | some x => s.setDistrict n { x with damaged := true }
    | none => s
  | .booster n => s.modBooster n fun x => { x with damaged := true }
  | .meter n => s.setMeter n { s.meter n with damaged := true }
  | .yard =>
    let t : State := { s with yardDamaged := true }
    t.setMeterStation 0 t.yardNow.makeMeter
  | .line l => s.modLine l fun u => { u with damaged := true }
  | .poll n => match s.poll n with
    | some p => s.setPoll n { p with damaged := true }
    | none => { s with pollHoles := setInsert n s.pollHoles }
  | .directory n => s.modEntry n fun e => { e with damaged := true }
  | .turnWork i => s.modFill fun f => { f with work := markTurn f.work i }
  | .turnPend i => s.modFill fun f => { f with pend := markTurn f.pend i }
  | .draw => s.modDraw fun d => { d with recDamaged := true }
  | .drawMode => s.modDraw fun d => { d with modeDamaged := true }
  | .poolMode => s.modPool fun p => { p with modeDamaged := true }

/-! ### What damage does at the owners (11 Table 11.1) -/

/-- The aging timer after a yard record takes effect, by the period before and after (08 R162). -/
def agingAfter (now : Nat) (due : Option Nat) : Option Nat → Option Nat
  | none => none
  | some p => match due with
    | some t => some t
    | none => some (now + 60 * p)

/-- The yard record in force has changed: each unit takes it at the moment its chapter gives (04 R82, 05 R113, 08 R162). -/
def State.yardTaken (s : State) (before : YardRec) : State :=
  let y := s.yardNow
  let t : State := { s with relay := { s.relay with agingDue := agingAfter s.elapsed s.relay.agingDue y.aging } }
  t.hand ((if y.margin = before.margin then [] else [.headAll]) ++ [.levelEval, .shedAll])

/-- A damaged booster record: 50 is the lift from now on, and FREE or FAILED is OUT (11 Table 11.1). -/
def State.boosterDamage (s : State) (b : Nat) : State :=
  match s.booster b with
  | none => s
  | some x =>
    match x.state, x.district with
    | .free, _ | .failed, _ => s.setBooster b { x with state := .out }
    | .running, some d => s.tellBoost d b true (boosterLift { x with damaged := true })
    | _, _ => s

/-- A damaged directory entry (11 Table 11.1). -/
def State.entryDamage (s : State) (station : Nat) : State :=
  match s.entry station with
  | none => s
  | some e =>
    if e.kind = .bound then
      (s.setEntry station { e with line := none, groups := 0#12, lost := true, damaged := true }).hand [.stationLost station]
    else s.removeEntry station

/-- The damage of a record handed to its owner (11 R209, Table 11.1); the mark is set already. -/
def State.damageActs (s : State) (modes : Mode × Mode) (before : YardRec) : RecordRef → State
  | .holder n => s.hand [.addCause n .record]
  | .district n =>
    (s.modDistrict n fun rt => { rt with target := none, seg := none }).hand [.districtDerive n, .shed n]
  | .booster n => s.boosterDamage n
  | .meter n => s.setMeter n { s.meter n with carry := true }
  | .yard => s.yardTaken before
  | .directory n => s.entryDamage n
  | .drawMode => if modes.1 = .auto then s.drawManual else s
  | .poolMode => if modes.2 = .auto then s.poolManual else s
  | _ => s

/-- A double-bit error found (11 R209). -/
def State.recordDamaged (s : State) (r : RecordRef) : State :=
  let n := recordName r
  ((s.markDamaged r).notify .recordDamaged .none (.pair n.1 n.2)).damageActs (s.drawMode, s.poolMode) s.yardNow r

/-- A single-bit error found: corrected and counted (11 R208). -/
def State.corrected (s : State) : State :=
  let n := satAdd Config.trackingMax s.mem.tracking 1
  let t := s.modMem fun m => { m with tracking := n }
  if s.mem.tracking + 1 = Config.trackingMax then t.notify .correctionsSaturated .none .absent else t

/-- What the step's input says of one record (log entry 10). -/
def findingOf (fs : Findings) (r : RecordRef) : Option Flip :=
  match fs.find? fun p => p.1 == r with
  | some p => some p.2
  | none => none

/-- One record is read; counts of records corrected and newly damaged go up (11 R208-R210). -/
def State.readRecord (fs : Findings) (acc : State × Nat × Nat) (r : RecordRef) : State × Nat × Nat :=
  if acc.1.isDamaged r then acc
  else match findingOf fs r with
    | none => acc
    | some .single => (acc.1.corrected, acc.2.1 + 1, acc.2.2)
    | some .double => (acc.1.recordDamaged r, acc.2.1, acc.2.2 + 1)

/-- The records are read in order. -/
def State.readRecords (s : State) (fs : Findings) (rs : List RecordRef) : State × Nat × Nat :=
  rs.foldl (State.readRecord fs) (s, 0, 0)

/-- An error found by a read that a unit makes at its work, or that the sweep makes in the background (11 R208-R210). -/
def State.errorFound (s : State) (e : Met) : State :=
  if (e.bySweep && !s.mem.sweep) || !s.guarded.contains e.record then s
  else
    let a := State.readRecord [(e.record, e.flip)] (s, 0, 0) e.record
    if e.bySweep then a.1.modMem fun m => { m with swept := (m.swept.1 + a.2.1, m.swept.2 + a.2.2) } else a.1

/-- The errors that the reads of a step meet are acted on, in their order (log entry 10). -/
def State.meetErrors (s : State) : State := s.mem.met.foldl State.errorFound (s.modMem fun m => { m with met := [] })

/-- A table write that is taken aborts the running sweep (11 R210). -/
def State.tableWritten (s : State) : State :=
  if s.mem.sweep then (s.modMem fun m => { m with sweep := false }).notify .checkAborted .none .absent else s

/-! ### The store image (11 R211, Table 11.2) -/

def keepAll {α β : Type} (t : Tbl α) (f : α → β) (g : α → Bool) : Tbl (Kept β) := t.map fun p => (p.1, (f p.2, g p.2))

/-- The directory block: STATIC entries, and the group sets of BOUND entries. -/
def directoryBlock (t : Tbl DirEntry) : BlockContent :=
  .directory
    ((t.filter (·.2.kind == .static)).map fun p => (p.1, ((p.2.line, p.2.groups), p.2.damaged)))
    ((t.filter (·.2.kind == .bound)).map fun p => (p.1, (p.2.groups, p.2.damaged)))

/-- The content of a block, as a snapshot takes it. -/
def State.blockContent (s : State) (code : Nat) : BlockContent :=
  match code with
  | 1 => .holders (keepAll s.holders (·.tab) (·.damaged))
  | 2 => .valves (keepAll s.valves (·.tab) (·.damaged))
  | 3 => .districts (keepAll s.districts (·.tab) (·.damaged))
  | 4 => .boosters (keepAll s.boosters (·.tab) (·.damaged)) (s.pool.mode, s.pool.modeDamaged)
  | 5 => .meters (keepAll s.meters (fun m => (m.weight, m.limit)) (·.damaged))
  | 6 => .yard (s.yard, s.yardDamaged) s.yardPresent
  | 7 => .lines (s.lines.f1.set, s.lines.f1.damaged) (s.lines.f2.set, s.lines.f2.damaged) (s.lines.f3.set, s.lines.f3.damaged)
  | 9 => .polls (keepAll s.polls (·.tab) (·.damaged)) s.pollHoles
  | 11 => directoryBlock s.dir
  | 12 => .rotaWork s.fill.work
  | 13 => .rotaPend s.fill.pend
  | _ => .draw (s.draw.tab, s.draw.recDamaged) (s.draw.mode, s.draw.modeDamaged)

/-- The skip set names only block codes (11 R211); bit c of its word stands for block code c (the model's choice, log entry 11). -/
def skipOk (skip : Word) : Bool := (List.range 16).all fun i => !skip.getLsbD i || blockCodes.contains i

/-- The snapshot, in the order of 11 Table 11.2 (the bits of the skip set: log entry 11). -/
def State.snapshot (s : State) (skip : Word) : List Block :=
  blockCodes.map fun c => ⟨c, if skip.getLsbD c then none else some (s.blockContent c), true⟩

def putBlock (store : List Block) (b : Block) : List Block := store.map fun x => if x.code = b.code then b else x

/-- The store write goes on to its next block, or ends with STORE DONE (11 R211). -/
def State.nextBlock (s : State) (rest : List Block) (written : Nat) : State :=
  if rest.isEmpty then (s.modMem fun m => { m with writing := none }).notify .storeDone .none (.one written)
  else s.modMem fun m => { m with writing := some ⟨rest, written, false⟩ }

/-- One block written and read back: good, or failing its check word (11 R211). -/
def State.blockWritten (s : State) (w : StoreWrite) (good : Bool) : State :=
  match w.blocks with
  | [] => s.nextBlock [] w.written
  | b :: rest =>
    let t := s.modMem fun m => { m with store := putBlock m.store { b with good := good } }
    if good then t.nextBlock rest (w.written + 1)
    else if w.second then t.nextBlock rest w.written
    else t.modMem fun m => { m with writing := some { w with second := true } }

/-! ### Start-up (11 R212, 08 R175) -/

def loadTbl {α β : Type} (t : Tbl (Kept α)) (f : α → Bool → β) : Tbl β := t.map fun p => (p.1, f p.2.1 p.2.2)

def valveInitial (r : ValveRec) (d : Bool) : Valve :=
  { tab := r, damaged := d, state := .unknown, localHand := false, slot := Slot.free }

def pollInitial (r : PollRec) (d : Bool) : PollPos :=
  { tab := r, damaged := d, search := .f1, reported := 0#16, lastOutcome := none, lastGood := none, lastCycle := none }

/-- A line at start-up; its chatter budget is the entry's until the first window expiry (the model's choice, log entry 66). -/
def lineInitial (k : Kept LineSet) : LineUnit :=
  let u := { LineUnit.initial with set := k.1, damaged := k.2 }
  { u with rate := (lineSet u).rate, budget := (lineSet u).budget }

/-- The content of a LOAD block is written into its table (11 R212 step 2). -/
def State.loadBlock (s : State) : BlockContent → State
  | .holders t => { s with holders := loadTbl t fun r d => ⟨r, d, HolderRt.initial r⟩ }
  | .valves t => { s with valves := loadTbl t valveInitial }
  | .districts t => { s with districts := loadTbl t fun r d => ⟨r, d, DistrictRt.initial r d, Slot.free⟩ }
  | .boosters t m => { s with
      boosters := loadTbl t Booster.initial
      pool := { s.pool with mode := m.1, modeDamaged := m.2 } }
  | .meters t => { s with meters := loadTbl t fun r d => { Meter.initial with weight := r.1, limit := r.2, damaged := d } }
  | .yard r p => { s with yard := r.1, yardPresent := p, yardDamaged := r.2 }
  | .lines a b c => { s with lines := ⟨lineInitial a, lineInitial b, lineInitial c⟩ }
  | .polls t holes => { s with polls := loadTbl t pollInitial, pollHoles := holes }
  | .directory _ _ => s
  | .rotaWork ts => s.modFill fun f => { f with work := ts }
  | .rotaPend ts => s.modFill fun f => { f with pend := ts }
  | .draw r m => s.modDraw fun d => { d with tab := r.1, recDamaged := r.2, mode := m.1, modeDamaged := m.2 }

/-- The blocks of the image as start-up reads them: a block whose check word fails is none (11 R212 step 1). -/
def goodBlock (r : StoreRead) (b : Block) : Bool := r.answers && b.good && !r.failed.contains b.code

/-- The bindings of the loaded tables (11 R212 step 3). -/
def State.tableBindings (s : State) : List (Binding × Nat) :=
  (s.holders.map fun p => (.gauge p.1, p.2.tab.gauge))
  ++ (s.valves.map fun p => (.valve p.1, p.2.tab.station))
  ++ (s.districts.flatMap fun p => districtBindings p.1 p.2.tab)
  ++ (s.boosters.map fun p => (.booster p.1, p.2.tab.station))
  ++ (match s.yard.makeMeter with
    | some st => [(.makeMeter, st)]
    | none => [])

/-- The directory of start-up (08 R175): the STATIC entries, then the BOUND entries with the group sets stored. A station that two records
name is bound to the first (the model's choice, log entry 107). -/
def State.buildDirectory (s : State) (static : Tbl (Kept (Option FLine × BitVec 12))) (groups : Tbl (Kept (BitVec 12))) : State :=
  let t := static.foldl (fun acc p => acc.createEntry p.1 (freshEntry p.2.1.1 .static none false p.2.1.2)) s
  let u := t.bindAll s.tableBindings
  groups.foldl (fun acc p => acc.modEntry p.1 fun e =>
    if e.kind = .bound ∧ e.staticMark = false then { e with groups := p.2.1, damaged := p.2.2 } else e) u

def directoryOf (bs : List Block) : Tbl (Kept (Option FLine × BitVec 12)) × Tbl (Kept (BitVec 12)) :=
  bs.foldl (fun acc b => match b.content with
    | some (.directory st gr) => (st, gr)
    | _ => acc) ([], [])

/-- The stations of the meter entries from the loaded records (06 R135), the directory being built. -/
def State.meterStations (s : State) : State :=
  let t := s.districts.foldl (fun acc p => acc.setMeterStation p.1 (some p.2.tab.meter)) s
  t.setMeterStation 0 s.yardNow.makeMeter

def damagedIn {α : Type} (t : Tbl (Kept α)) (f : Nat → RecordRef) : List RecordRef :=
  (t.filter (·.2.2)).map fun p => f p.1

def damagedTurns (ts : List Turn) (f : Nat → RecordRef) : List RecordRef :=
  (ts.zipIdx.filter (·.1.damaged)).map fun p => f p.2

/-- The records that a block holds damaged, in its order. -/
def damagedRecords : BlockContent → List RecordRef
  | .holders t => damagedIn t .holder
  | .valves t => damagedIn t .valve
  | .districts t => damagedIn t .district
  | .boosters t m => damagedIn t .booster ++ (if m.2 then [.poolMode] else [])
  | .meters t => damagedIn t .meter
  | .yard r _ => if r.2 then [.yard] else []
  | .lines a b c => (if a.2 then [.line .f1] else []) ++ (if b.2 then [.line .f2] else []) ++ (if c.2 then [.line .f3] else [])
  | .polls t holes => damagedIn t .poll ++ holes.map .poll
  | .directory st gr => damagedIn st .directory ++ damagedIn gr .directory
  | .rotaWork ts => damagedTurns ts .turnWork
  | .rotaPend ts => damagedTurns ts .turnPend
  | .draw r m => (if r.2 then [.draw] else []) ++ (if m.2 then [.drawMode] else [])

/-- What start-up hands on at its end, block by block: bad blocks to be noticed, damaged records to their owners. -/
def startupHandoffs (r : StoreRead) (bs : List Block) : List Handoff :=
  bs.flatMap fun b =>
    if goodBlock r b then
      match b.content with
      | some c => (damagedRecords c).map .damaged
      | none => []
    else [.blockBad b.code]

/-- Start-up (11 R212): the tables loaded, the directory built, the units at their power-on values. The queue, the store
and the count of free values stand. -/
def State.startUp (s : State) (r : StoreRead) : State :=
  let good := s.mem.store.filter (goodBlock r)
  let base : State := { State.reset with pending := s.pending, free := s.free, mem := { State.reset.mem with store := s.mem.store } }
  let t := good.foldl (fun acc b => match b.content with
    | some c => acc.loadBlock c
    | none => acc) base
  let d := directoryOf good
  let u := (t.buildDirectory d.1 d.2).meterStations
  let y := u.yardNow
  let v : State := { u with
    cycle := ⟨0, y.cyclePeriod, y.cyclePeriod, 0⟩
    relay := { u.relay with agingDue := y.aging.map (60 * ·) }
    mem := { u.mem with autoRun := y.autoRun } }
  let w : State := { v with acct := { v.acct with openAcct := v.openAccount 0 v.stockSum v.stockClean } }
  w.hand (startupHandoffs r s.mem.store)

end Sys2Proof.Machine
end

