-- ==== Sys2Proof/Machine/Readings.lean ====
section
/-! DEFINITION. What the desk reads: the words of the table entries (10 R195, Table 10.3; log entry 12), counters
(10 R206), and the readings of the units (01 R26, 02 R51, 04 R98, 05 R116). -/

namespace Sys2Proof.Machine

/-! ### Entry words -/

/-- An optional value: a presence word and the value's words, zeros when absent. -/
def optWords (width : Nat) : Option (List Nat) → List Nat
  | some ws => 1 :: ws
  | none => List.replicate (width + 1) 0

def optOne (o : Option Nat) : List Nat := optWords 1 (o.map fun n => [n])

/-- Seconds to an expiry. -/
def State.secondsTo (s : State) (due : Option Nat) : Option Nat := due.map fun t => t - s.elapsed

def valveWords (s : State) (n : Nat) (x : Valve) : List Nat :=
  [n, s.valveStation n, if x.damaged then 900 else x.tab.travel, vStateCode x.state, bit x.localHand, bit x.damaged]

def boosterWords (s : State) (x : Booster) : List Nat :=
  [x.tab.station, bit x.tab.inService, boosterLift x, boosterAllowance x, bStateCode x.state, x.district.getD 0]
  ++ optOne (s.secondsTo x.releaseDue) ++ [optCode stopCauseCode x.stopDue, optCode failCauseCode x.cause]
  ++ optWords 2 (x.sample.map fun p => [bit p.1, p.2]) ++ optOne (s.secondsTo x.undecided) ++ [bit x.damaged]

def meterWords (m : Meter) : List Nat :=
  [m.station.getD 0, m.weight, m.limit] ++ optWords 2 (m.last.map two) ++ [m.residue, bit m.lost, bit m.carry]
  ++ three m.accepted ++ three m.rejected ++ [bit m.damaged]

def lineModeCode : LineMode → Nat
  | .idle => 0
  | .sending => 1
  | .awaiting => 2

/-- Line status (07 R155). -/
def lineStatusWords (u : LineUnit) : List Nat :=
  [bit u.quarantined, u.fails, lineModeCode u.mode, u.q0.length, u.q1.length, u.q2.length] ++ encodeLine (lineSet u)

/-- A poll list position that holds an entry (09 R189). -/
def pollWords (s : State) (p : PollPos) : List Nat :=
  [1] ++ encodePoll { p.tab with enabled := pollEnabled p } ++ [bit p.damaged, linePlace p.search, p.reported.toNat]
  ++ (match p.lastOutcome with
    | some (o, t) => pollOutcomeCode o :: two t
    | none => [0, 0, 0])
  ++ optWords 3 (p.lastGood.map fun g => g.1 :: two g.2) ++ optOne p.lastCycle
  ++ optWords 3 ((s.entry p.tab.station).map fun e => [locationWord e.line, e.failures, bit e.lost])

/-- Poll status (09 R189). -/
def pollStatusWords (s : State) : List Nat :=
  [s.cycle.number, s.cycle.due - s.elapsed, s.cycle.period, s.yardNow.lostThreshold]

/-- A directory entry, the fields of 08 Table 8.1. -/
def entryWordsOf (station : Nat) (e : DirEntry) : List Nat :=
  [station, locationWord e.line, entryKindCode e.kind, roleCode e.binding, bindingNumber e.binding, bit e.staticMark, bit e.heard]
  ++ two e.seq ++ [bit e.lost, e.failures, e.groups.toNat, bit e.watch, bit e.damaged]

def turnWords (ts : List Turn) : List Nat :=
  (ts.map turnHolder) ++ [bits ((ts.take 16).map (·.damaged)), bits ((ts.drop 16).map (·.damaged))]

/-- A set of holders as a mask, holder `n` in bit `n - 1` (the model's choice, log entry 60). -/
def maskOfSet (l : List Nat) : Nat := bits ([1, 2, 3, 4].map l.contains)

/-- Fill and draw status (03 R55, R78); its sets of holders are masks (the model's choice, log entry 60). -/
def fillStatusWords (s : State) : List Nat :=
  [bit s.fill.running, s.fill.turn] ++ optOne (s.secondsTo s.fill.turnDue) ++ [s.fill.filling.getD 0]
  ++ (match s.fill.chg with
    | some c => [1, c.old.getD 0, c.new, (match c.phase with
        | .openingNew => 0
        | .shuttingOld => 1), bit c.openClaimed] ++ optWords 2 (c.deferral.map two)
    | none => List.replicate 8 0)
  ++ [bit s.fill.selDue, bit s.fill.unplaced, maskOfSet s.fill.stray, modeCode s.drawMode, bit s.draw.modeDamaged, maskOfSet s.draw.set]
  ++ (match s.draw.chg with
    | some c => [1, maskOfSet (c.entering.map (·.1)), maskOfSet ((c.entering.filter (·.2 == .opened)).map (·.1)),
        maskOfSet ((c.entering.filter (·.2 == .failed)).map (·.1)), maskOfSet c.leaving]
    | none => List.replicate 5 0)
  ++ [s.draw.main, bit s.draw.mainStale]

/-- Yard status (10 R207). -/
def yardStatusWords (s : State) : List Nat :=
  [runStateCode s.runState, bit s.yardPresent, s.clock.day] ++ two s.clock.second ++ [bit s.clock.set, s.flags.toNat,
    s.desk.notices.length, s.desk.lostNotices] ++ two s.elapsed
  ++ (match s.desk.staged with
    | some g => [1, g.table, g.index, g.next]
    | none => [0, 0, 0, 0])

/-- The index range of a table code (10 Table 10.3); none where the code is unknown. -/
def indexOk (table index : Nat) : Option Bool :=
  match table with
  | 1 => some (inRange 1 4 index)
  | 2 | 3 => some (inRange 1 8 index)
  | 4 | 7 | 8 => some (inRange 1 3 index)
  | 5 => some (inRange 0 8 index)
  | 6 | 10 | 12 | 13 | 14 | 15 | 16 => some (index == 0)
  | 9 => some (inRange 1 48 index)
  | 11 => some (inRange 1 199 index)
  | _ => none

/-- The guarded records that a READ ENTRY reads: the record itself, and those whose fields the entry shows beside it (09 R189,
10 R207, 11 R208). -/
def State.entryRecords (s : State) (table index : Nat) : List RecordRef :=
  match table with
  | 1 => [.holder index]
  | 2 => [.valve index]
  | 3 => [.district index]
  | 4 => [.booster index]
  | 5 => [.meter index]
  | 6 => [.yard]
  | 7 | 8 => match lineOfNum index with
    | some l => [.line l]
    | none => []
  | 9 => .poll index :: (match s.poll index with
    | some p => [.directory p.tab.station]
    | none => [])
  | 10 | 16 => [.yard]
  | 11 => [.directory index]
  | 12 => (List.range 24).map .turnWork
  | 13 => (List.range 24).map .turnPend
  | 14 => [.draw]
  | 15 => [.drawMode]
  | _ => []

/-- The words of an entry; none where the record is not held (10 R195). -/
def State.entryWords (s : State) (table index : Nat) : Option (List Nat) :=
  match table with
  | 1 => (s.holder index).map fun x => encodeHolder x.tab ++ [bit x.damaged]
  | 2 => (s.valve index).map (valveWords s index)
  | 3 => (s.district index).map fun x => encodeDistrict x.tab ++ [bit x.damaged]
  | 4 => (s.booster index).map (boosterWords s)
  | 5 => some (meterWords (s.meter index))
  | 6 => some (encodeYard s.yardNow ++ [bit s.yardPresent, bit s.yardDamaged])
  | 7 => (lineOfNum index).map fun l => encodeLine (lineSet (s.line l)) ++ [bit (s.line l).damaged]
  | 8 => (lineOfNum index).map fun l => lineStatusWords (s.line l)
  | 9 => some (match s.poll index with
    | some p => pollWords s p
    | none => [0, bit (s.pollHoles.contains index)])
  | 10 => some (pollStatusWords s)
  | 11 => (s.entry index).map (entryWordsOf index)
  | 12 => some (turnWords s.fill.work)
  | 13 => some (turnWords s.fill.pend ++ [bit s.fill.pendFlag])
  | 14 => some (encodeDraw s.drawRec ++ [bit s.draw.recDamaged])
  | 15 => some (fillStatusWords s)
  | 16 => some (yardStatusWords s)
  | _ => none

/-- The number of parts of an entry (10 R195). -/
def partCount (ws : List Nat) : Nat := max 1 ((ws.length + 27) / 28)

/-! ### Counters (10 R206) -/

def counterWords (c : Counters) : List Nat :=
  [c.telegramsIn, c.telegramsOut, c.lineErrors, c.strays, c.chatter, c.deskDrops, c.overrun, c.quarantine]

/-- The counters of a group: D, F1, F2, F3, PART as 0 to 4. -/
def State.countsOf (s : State) (group : Nat) : List Nat :=
  match group with
  | 0 => counterWords s.desk.counters
  | 1 => counterWords s.lines.f1.counters
  | 2 => counterWords s.lines.f2.counters
  | 3 => counterWords s.lines.f3.counters
  | _ => [s.relay.dirFull, s.desk.lostNotices, s.mem.tracking]

def zeroCounters : LineUnit → LineUnit := countLine fun _ => Counters.zero

def State.clearCounts (s : State) (group : Nat) : State :=
  match group with
  | 0 => { s with desk := { s.desk with counters := Counters.zero } }
  | 1 => s.modLine .f1 zeroCounters
  | 2 => s.modLine .f2 zeroCounters
  | 3 => s.modLine .f3 zeroCounters
  | _ => { s with
      relay := { s.relay with dirFull := 0 }
      desk := { s.desk with lostNotices := 0 }
      mem := { s.mem with tracking := 0 } }

/-! ### The readings of the units -/

/-- 01 R26. -/
def State.holderReading (s : State) (x : Holder) : AnswerData :=
  .holder x.rt (s.secondsTo x.rt.graceDue) (s.secondsTo (x.rt.park.map (·.due)))

/-- A slot as it is shown: of a FREE slot the state alone, of any other the order, its times as seconds (02 R51). -/
def State.shownSlot (s : State) (sl : Slot) : ShownSlot :=
  if slotFree sl then ⟨.free, none⟩
  else ⟨sl.state, some
    { code := sl.code, origin := sl.origin, tag := sl.tag.map (·.num), age := s.elapsed - sl.issued,
      deadlineLeft := s.secondsTo sl.deadline, checkPending := sl.checkPending,
      followUp := sl.followUp.map fun f => (f.origin, f.tag.map (·.num)) }⟩

/-- 02 R51; of a damaged record, with the station and the travel time taken in its place (11 Table 11.1). -/
def State.valveReading (s : State) (v : Nat) (x : Valve) : AnswerData :=
  .valve (s.valveStation v) (if x.damaged then 900 else x.tab.travel) (travelAllowance x) x.state x.localHand (s.shownSlot x.slot)

/-- 04 R98. -/
def State.districtReading (s : State) (x : District) : AnswerData :=
  .district x.rt (x.rt.seg.bind (segmentOf x.tab)) (s.secondsTo x.rt.settleDue) (s.headNoLift x.tab) s.yardNow.margin
    (s.shownSlot x.slot)

/-- A booster as it is shown; of a damaged record, with the lift and allowance taken in its place (11 Table 11.1). -/
def State.shownBooster (s : State) (n : Nat) (x : Booster) : ShownBooster :=
  { number := n, tab := { x.tab with lift := boosterLift x, allowance := boosterAllowance x }, state := x.state,
    district := x.district, releaseLeft := s.secondsTo x.releaseDue, stopDue := x.stopDue, cause := x.cause, sample := x.sample,
    undecidedLeft := s.secondsTo x.undecided, slot := s.shownSlot x.slot }

/-- 05 R116. -/
def State.boosterReading (s : State) : AnswerData :=
  .boosters { s.pool with mode := s.poolMode } (s.boosters.map fun p => s.shownBooster p.1 p.2)
    (s.secondsTo s.pool.recoveryDue) (s.districts.map fun p => (p.1, p.2.rt.shed))

end Sys2Proof.Machine
end

