-- ==== Sys2Proof/Machine/Requests.lean ====
section
/-! DEFINITION. The desk request unit (10 R192-R207): the taking of an ASK, and the requests that read, set modes, and
change the run state. -/

namespace Sys2Proof.Machine

/-! ### Answers (10 R192-R194) -/

/-- The answer to the request of code `c`, made after the hand-offs that the request has made. -/
def State.reply (s : State) (tag c : Nat) (r : Result) (ws : List Nat) : State := s.hand [.reply tag c r none (.words ws)]

def State.replyData (s : State) (tag c : Nat) (d : AnswerData) : State := s.hand [.reply tag c .done none d]

/-- BAD, with the position of the first word found wrong (10 R193). -/
def State.bad (s : State) (tag c position : Nat) : State := s.reply tag c .bad [position]

/-- BAD where the manual gives no position: a relation between words, or a word of an earlier part (log entry 14). -/
def State.badAnywhere (s : State) (tag c : Nat) : State :=
  ({ s with free := s.free + 1 } : State).bad tag c (Config.freeWord s.free).toNat

/-- BAD for word `i` of an entry whose first `prior` words came in earlier parts. -/
def State.badEntry (s : State) (tag prior i : Nat) : State :=
  if prior ≤ i then s.bad tag 2 (5 + (i - prior)) else s.badAnywhere tag 2

/-- The answer that a repeated ASK is given again (10 R194). -/
def State.heldAnswer (s : State) (h : AskHead) (code : Nat) : Option LastAnswer :=
  match s.desk.lastAnswer with
  | some a => if h.rep ∧ a.tag = h.tag ∧ a.request = code then some a else none
  | none => none

/-- An ASK with this request code is taken: only while its answer finds room, and not acted on again when repeated (07 R144,
10 R194). -/
def State.takeAsk (s : State) (h : AskHead) (code : Nat) (act : State → State) : State :=
  if s.deskServes then
    match s.heldAnswer h code with
    | some a => { s with desk := placeAnswer a.tag a.result a.request a.reason a.data s.desk }
    | none => act s
  else s

/-! ### Run state (10 R199, R200, 11 R213) -/

/-- Why RUN is refused, with the reason data (10 R199, 09 R188). -/
def State.runRefusal (s : State) : Option (Reason × List Nat) :=
  if s.holders.isEmpty then some (.missingTable, [1])
  else if s.districts.isEmpty then some (.missingTable, [2])
  else if !s.yardPresent || s.yardDamaged then some (.missingTable, [3])
  else match s.unpolled with
    | [] => none
    | st :: rest => some (.unpolled, [st, rest.length + 1])

/-- Entry to RUN, handed to every unit (10 R199). The stops due are made before the sweep and the grants: the rules of 05 that act at
the entry (R103, R104, R109) give no order among themselves (the model's choice, log entry 111). -/
def State.enterRun (s : State) : State :=
  let t : State := { s with runState := .run }
  t.hand ((if s.runState = .standby then [.safetyExamine] else []) ++ [.fillRun, .drawRun, .stopsDue, .sweep, .grants])

def State.cancelAutoRun (s : State) : State := s.modMem fun m => { m with autoRun := false }

def State.doRun (s : State) (tag : Nat) : State :=
  let t := s.cancelAutoRun
  if s.running then t.hand [.replyRunState tag 3 .done none []]
  else match s.runRefusal with
    | some (r, ws) => t.hand [.replyRunState tag 3 .refused (some r) ws]
    | none => t.enterRun.hand [.replyRunState tag 3 .done none []]

def State.doHold (s : State) (tag : Nat) : State :=
  let t := s.cancelAutoRun
  if s.running then ({ t with runState := .hold } : State).hand [.stopsDue, .replyRunState tag 4 .done none []]
  else t.hand [.replyRunState tag 4 .badState none []]

def State.doStandby (s : State) (tag : Nat) : State :=
  ({ s.cancelAutoRun with runState := .standby } : State).hand [.replyRunState tag 5 .done none []]

/-! ### Warm restart (10 R201, 07 R157) -/

/-- The tag counter once a telegram being transmitted is completed: one that opens an exchange takes it on (07 R145, R157). -/
def completedTag (u : LineUnit) : Nat :=
  match u.mode, u.sending, u.exch with
  | .sending, some (_, t), none => if opensExchange t then (u.tag + 1) % 256 else u.tag
  | _, _, _ => u.tag

/-- Steps 1 to 4 of 07 R157 on one field line (log entry 28); the chatter budget in force is kept, and every line enters IDLE and takes
the rate of its entry, one that was IDLE too (the model's choices, log entries 66 and 103). -/
def restartLine (now : Nat) (u : LineUnit) : LineUnit :=
  { u with
    tag := completedTag u
    mode := .idle, selected := none, sending := none, exch := none, q0 := [], q1 := [], q2 := [], quarantined := false,
    fails := 0, first := none, second := false, alerts := 0, windowDue := now + Config.windowPeriod, rate := (lineSet u).rate,
    counters := Counters.zero }

/-- Steps 1 to 6 of 07 R157 on the desk line: the telegram being transmitted is completed, and the queue then emptied (log
entry 28). -/
def restartDesk (d : Desk) : Desk :=
  { d with rx := [], tx := [], out := (deskSending d.tx).or d.out, overrun := d.overrun || !d.rx.isEmpty, counters := Counters.zero, staged := none }

/-- Every unit's warm restart (01 R28, 02 R53, 03 R80, 04 R100, 05 R118, 06 R136, 08 R176, 09 R191). -/
def State.restartUnits (s : State) : State :=
  let holders := s.holders.map fun p => (p.1, restartHolder s.elapsed (s.valveState p.2.tab.inlet) p.2)
  let t : State := { s.restartOrders with
    holders := holders
    runState := .standby
    lines := ⟨restartLine s.elapsed s.lines.f1, restartLine s.elapsed s.lines.f2, restartLine s.elapsed s.lines.f3⟩
    dir := restartDirectory s.dir
    cycle := { s.cycle with number := 0, due := s.elapsed + s.yardNow.cyclePeriod, period := s.yardNow.cyclePeriod }
    pool := { s.pool with queue := [], recoveryDue := none }
    meters := s.meters.map fun p => (p.1, { p.2 with lost := false })
    desk := restartDesk s.desk }
  let u : State := { t with
    relay := { t.relay with floods := [] }
    districts := t.districts.map fun p => (p.1, restartDistrict p.2)
    boosters := t.boosters.map fun p => (p.1, restartBooster s.elapsed p.2) }
  u.restartFill.restartDraw

/-- The last-answer record is set and the ANSWER placed (10 R192, R194). -/
def State.giveAnswer (s : State) (tag c : Nat) (r : Result) (why : Option Reason) (d : AnswerData) : State :=
  { s with desk := placeAnswer tag r c why d { s.desk with lastAnswer := some ⟨tag, c, r, why, d⟩ } }

def State.doRestart (s : State) (tag : Nat) : State :=
  let t := s.cancelAutoRun.restartUnits
  let a := t.giveAnswer tag 6 .done none (.words [runStateCode t.runState])
  let b := ((a.answerEach .superseded s.restartAnswers).answerEach .tooLate s.parkedAnswers).tableWritten
  if b.draw.main = s.draw.main ∧ b.draw.mainStale = s.draw.mainStale then b else b.hand [.headAll, .noDrawCheck]

/-! ### Clock, flags, notices, counters (10 R202-R206) -/

/-- SET CLOCK (10 R202). A second out of range is BAD at the first of its two words (the model's choice, log entry 117). -/
def State.doSetClock (s : State) (tag day second : Nat) : State :=
  if 65535 < day then s.bad tag 7 2
  else if Config.daySeconds ≤ second then s.bad tag 7 3
  else
    let t : State := { s with clock := ⟨day, second, true⟩, minuteDue := false }
    t.acctClockSet.retargetAll.reply tag 7 .done ([s.clock.day] ++ two s.clock.second ++ [bit s.clock.set])

/-- A district's profile flag is one of the flags that changed. -/
def flagNamed (old new : BitVec 8) (x : District) : Bool :=
  match x.tab.profFlag with
  | some f => old.getLsbD f != new.getLsbD f
  | none => false

def State.doSetFlags (s : State) (tag : Nat) (codes : Word) : State :=
  let t : State := { s with flags := applyFlags codes s.flags }
  t.hand (((s.districts.filter fun p => flagNamed s.flags t.flags p.2).map fun p => .target p.1) ++ [.replyFlags tag])

def State.doReadNotices (s : State) (tag count : Nat) : State :=
  if !inRange 1 4 count then s.bad tag 9 2
  else if s.desk.notices.isEmpty then s.reply tag 9 .empty []
  else
    let out := s.desk.notices.take count
    ({ s with desk := { s.desk with notices := s.desk.notices.drop count } } : State).reply tag 9 .done
      (out.length :: out.flatMap noticeWords)

def State.doReadCounts (s : State) (tag group clear : Nat) : State :=
  if 4 < group then s.bad tag 10 2
  else if 1 < clear then s.bad tag 10 3
  else (if clear = 1 then s.clearCounts group else s).reply tag 10 .done (s.countsOf group)

/-! ### The directory's requests (08 R172-R174) -/

/-- The setting of WATCH: ON is 0 and OFF is 1 (log entry 11). -/
def State.doWatch (s : State) (tag station setting : Nat) : State :=
  if !inRange 1 199 station then s.reply tag 11 .bad (2 :: watchList s.dir)
  else if 1 < setting then s.reply tag 11 .bad (3 :: watchList s.dir)
  else if (s.entry station).isNone then s.reply tag 11 .notFound (watchList s.dir)
  else match s.setWatch station (setting == 0) with
    | some t => t.reply tag 11 .done (watchList t.dir)
    | none => s.reply tag 11 .full (watchList s.dir)

def State.doSearch (s : State) (tag start line kind group : Nat) : State :=
  if !inRange 1 199 start then s.bad tag 12 2
  else if 4 < line then s.bad tag 12 3
  else if 3 < kind then s.bad tag 12 4
  else if !(group == 0 || inRange 200 211 group) then s.bad tag 12 5
  else s.replyData tag 12 (searchAnswer s.dir start line kind group)

def State.doDelete (s : State) (tag station : Nat) : State :=
  if !inRange 1 199 station then s.bad tag 13 2
  else match s.entry station with
    | none => s.reply tag 13 .notFound []
    | some e =>
      if e.kind = .bound then s.reply tag 13 .badState []
      else (s.removeEntry station).tableWritten.reply tag 13 .done []

def State.doClear (s : State) (tag : Nat) : State :=
  ({ s with dir := dropLearned s.dir } : State).tableWritten.reply tag 14 .done [countKind s.dir .learned]

/-! ### Table check and store (11 R210, R211) -/

def State.doTableCheck (s : State) (tag : Nat) : State :=
  if s.mem.sweep then s.reply tag 15 .busy [] else (s.modMem fun m => { m with sweep := true, swept := (0, 0) }).reply tag 15 .started []

def State.doStoreTables (s : State) (tag : Nat) (skip : Word) (fs : Findings) : State :=
  if !skipOk skip then s.bad tag 16 2
  else if s.mem.writing.isSome then s.reply tag 16 .busy []
  else
    let t := (s.readRecords fs s.guarded).1
    (t.nextBlock (t.snapshot skip) 0).reply tag 16 .started []

/-! ### Holders and valves (01 R14, R25, R26, 02 R51) -/

def State.doReadHolder (s : State) (tag n : Nat) : State :=
  if !inRange 1 4 n then s.bad tag 18 2
  else match s.holder n with
    | none => s.reply tag 18 .notFound []
    | some x => s.replyData tag 18 (s.holderReading x)

/-- BAR and UNBAR, by their codes: a selection is FILL 0, DRAW 1 or BOTH 2; each bar that changes is handed on (01 R25). -/
def State.doBar (s : State) (tag code n sel : Nat) (set : Bool) : State :=
  if !inRange 1 4 n then s.bad tag code 2
  else if 2 < sel then s.bad tag code 3
  else match s.holder n with
    | none => s.reply tag code .notFound []
    | some x =>
      let fill := if sel = 1 then x.rt.fillBar else set
      let draw := if sel = 0 then x.rt.drawBar else set
      ((s.modHolder n fun rt => { rt with fillBar := fill, drawBar := draw }).hand
        ((if fill = x.rt.fillBar then [] else [.fillBar n set]) ++ (if draw = x.rt.drawBar then [] else [.drawBar n set]))).reply
          tag code .done []

def State.doClearFault (s : State) (tag n : Nat) : State :=
  if !inRange 1 4 n then s.bad tag 21 2
  else match s.holder n with
    | none => s.reply tag 21 .notFound []
    | some x =>
      if !x.rt.latch then s.hand [.reply tag 21 .badState none (.causes Causes.empty)]
      else if !x.rt.causes.isEmpty then s.hand [.reply tag 21 .badState none (.causes x.rt.causes)]
      else ((s.modHolder n fun rt => { rt with latch := false }).rederive n).reply tag 21 .done []

def State.doReadValve (s : State) (tag n : Nat) : State :=
  if !inRange 1 8 n then s.bad tag 22 2
  else match s.valve n with
    | none => s.reply tag 22 .notFound []
    | some x => s.replyData tag 22 (s.valveReading n x)

/-! ### Filling and drawing (03 R54, R57, R58, R72) -/

def State.doLoadRota (s : State) (tag : Nat) (ts : List Nat) : State :=
  if ts.length ≠ 24 then s.bad tag 23 (lengthPosition 25 (ts.length + 1))
  else match (ts.zipIdx.find? fun p => decide (4 < p.1)) with
    | some p => s.bad tag 23 (2 + p.2)
    | none => ((s.modFill (loadPending ts)).tableWritten).reply tag 23 .done []

def State.doStartRota (s : State) (tag : Nat) : State :=
  if s.fill.running || 1 < s.countedInlets.length then s.reply tag 24 .badState [] else s.startRotaNow.reply tag 24 .done []

def State.doStopRota (s : State) (tag : Nat) : State := s.stopRotaNow.reply tag 25 .done []

def modeOfNum : Nat → Option Mode
  | 0 => some .auto
  | 1 => some .manual
  | _ => none

/-- SET DRAW MODE has its effects also when the mode is already as asked (03 R72, R76; log entry 36). -/
def State.doSetDrawMode (s : State) (tag mode : Nat) : State :=
  match modeOfNum mode with
  | none => s.bad tag 26 2
  | some m =>
    let t := s.modDraw fun d => { d with mode := m, modeDamaged := false }
    let u := match m with
      | .auto => t.drawAuto
      | .manual => t.drawManual
    u.tableWritten.reply tag 26 .done []

/-! ### Districts and boosters (04 R96, R98, 05 R102, R111, R116) -/

def State.doSetDistrictMode (s : State) (tag n mode : Nat) : State :=
  if !inRange 1 8 n then s.bad tag 27 2
  else match modeOfNum mode with
    | none => s.bad tag 27 3
    | some m => match s.district n with
      | none => s.reply tag 27 .notFound []
      | some x => ((s.setDistrict n { x with tab := { x.tab with auto := m == .auto } }).tableWritten).reply tag 27 .done []

def State.doReadDistrict (s : State) (tag n : Nat) : State :=
  if !inRange 1 8 n then s.bad tag 28 2
  else match s.district n with
    | none => s.reply tag 28 .notFound []
    | some x => s.replyData tag 28 (s.districtReading x)

/-- The effects follow a change of the mode in force (05 R102; log entry 36). -/
def State.doSetPoolMode (s : State) (tag mode : Nat) : State :=
  match modeOfNum mode with
  | none => s.bad tag 29 2
  | some m =>
    let t := s.modPool fun p => { p with mode := m, modeDamaged := false }
    let u := if s.poolMode = m then t
      else match m with
        | .auto => t.poolAuto
        | .manual => t.poolManual
    u.tableWritten.reply tag 29 .done []

def State.doFreeBooster (s : State) (tag n : Nat) : State :=
  if !inRange 1 3 n then s.bad tag 30 2
  else match s.booster n with
    | none => s.reply tag 30 .notFound []
    | some x =>
      if x.state = .failed ∧ slotFree x.slot = true then
        ((s.setBooster n { x with state := .free, cause := none, sample := none }).hand [.grants]).reply tag 30 .done []
      else s.reply tag 30 .badState []

def State.doReadBoosters (s : State) (tag : Nat) : State := s.replyData tag 31 s.boosterReading

/-! ### Accounts (06 R133, R134) -/

/-- The pick that names the open account (log entry 11). -/
def openPick : Nat := 65535

def State.doReadAccount (s : State) (tag pick part : Nat) : State :=
  let give := fun (t : State) (r : Result) (ws : List Nat) => t.reply tag 32 r (ws ++ s.ringWords)
  if 127 < pick ∧ pick ≠ openPick then give s .bad [2]
  else if 4 < part then give s .bad [3]
  else if pick = openPick then give s .done (accountPart (s.recordOf none none) part)
  else if s.acct.ring.isEmpty then give s .empty []
  else match s.acct.ring[pick]? with
    | none => give s .notFound []
    | some r => give s .done (accountPart r part)

def State.doReleaseAccount (s : State) (tag number : Nat) : State :=
  match s.acct.ring with
  | [] => s.reply tag 33 .empty []
  | r :: rest =>
    if r.number = number then
      ({ s with acct := { s.acct with ring := rest } } : State).reply tag 33 .done [rest.length]
    else s.reply tag 33 .stale (two r.number)

end Sys2Proof.Machine
end

