-- ==== Sys2Proof/Machine/TableAccess.lean ====
section
/-! DEFINITION. Table access (10 R195-R198): READ ENTRY, the staged write, the whole-entry writes of each table, removal;
and the requests by their codes (10 R192). -/

namespace Sys2Proof.Machine

/-! ### READ ENTRY (10 R195) -/

def State.doReadEntry (s : State) (tag table index part : Nat) (fs : Findings) : State :=
  match indexOk table index with
  | none => s.bad tag 1 2
  | some false => s.bad tag 1 3
  | some true =>
    if 3 < part then s.bad tag 1 4
    else
      let t := (s.readRecords fs ((s.entryRecords table index).filter s.guarded.contains)).1
      match t.entryWords table index with
      | none => t.reply tag 1 .notFound []
      | some ws =>
        if partCount ws ≤ part then t.bad tag 1 4
        else t.reply tag 1 .done ((part * 256 + partCount ws) :: (ws.drop (28 * part)).take 28)

/-! ### Whole entries (10 R196) -/

/-- A write is taken: a sweep is aborted, and the request is answered DONE after the units have acted. -/
def State.taken (s : State) (tag : Nat) : State := s.tableWritten.reply tag 2 .done []

/-- The checks of a whole entry: BAD with its position, or the write goes on. -/
def State.checked (s : State) (tag prior : Nat) (c : EntryCheck) (go : State → State) : State :=
  match c with
  | .word i => s.badEntry tag prior i
  | .relation => s.badAnywhere tag 2
  | .ok => go s

/-- 01 R2, R3. -/
def State.writeHolder (s : State) (tag n prior : Nat) (r : HolderRec) : State :=
  s.checked tag prior (checkHolder r) fun s =>
    match s.holderRefusal n r with
    | some e => (s.countRefusal e).reply tag 2 e []
    | none => (s.takeHolder n r).taken tag

/-- The valve's holder has an occupied park slot (02 R32, 10 R197). -/
def State.valveParked (s : State) (v : Nat) : Bool :=
  match s.valveHolder v with
  | some h => match s.holder h with
    | some x => x.rt.park.isSome
    | none => false
  | none => false

/-- A valve number in the entry that is not the index written is BAD (the model's choice, log entry 58). -/
def checkValve (n : Nat) (r : ValveRec) : EntryCheck :=
  checkEntry [(0, r.number == n && inRange 1 8 r.number), (1, inRange 1 199 r.station), (2, inRange 5 900 r.travel)] true

/-- A taken valve write (02 R32). A first write, and another station for a valve already UNKNOWN, are handed on as a change of valve
state (the model's choice, log entry 85). -/
def State.takeValve (s : State) (n : Nat) (r : ValveRec) : State :=
  let t := s.rebind [.valve n] [(.valve n, r.station)]
  match s.valve n with
  | some x =>
    if s.valveStation n = r.station then t.setValve n { x with tab := r, damaged := false }
    else (t.setValve n { x with tab := r, damaged := false, state := .unknown, localHand := false }).hand [.valveTold n false true]
  | none => (t.setValve n (valveInitial r false)).hand [.valveTold n false true]

/-- 02 R32. -/
def State.writeValve (s : State) (tag n prior : Nat) (r : ValveRec) : State :=
  s.checked tag prior (checkValve n r) fun s =>
    if !s.valveFree n || s.valveParked n then s.reply tag 2 .badState []
    else match s.examineBindings [(.valve n, r.station)] with
      | some e => (s.countRefusal e).reply tag 2 e []
      | none => (s.takeValve n r).taken tag

/-- A district record first written adds an entry to the open account (06 R125). -/
def State.addPart (s : State) (n : Nat) : State :=
  match tblGet s.acct.openAcct.parts n with
  | some _ => s
  | none => s.modAcct fun a => { a with parts := tblPut a.parts n Part.zero }

/-- The state after a district write: by Table 4.3 alone where another recorder station is named (04 R82, R84). -/
def State.districtWritten (s : State) (n : Nat) (r : DistrictRec) : Handoff :=
  match s.district n with
  | some x => if x.tab.recorder = r.recorder then .districtDerive n else .districtAfresh n
  | none => .districtDerive n

/-- A taken district write (04 R82). -/
def State.takeDistrict (s : State) (n : Nat) (r : DistrictRec) : State :=
  let t := s.rebind [.governor n, .recorder n, .meter n] (districtBindings n r)
  let u := match s.district n with
    | some x => t.setDistrict n { x with tab := r, damaged := false }
    | none => (t.setDistrict n ⟨r, false, DistrictRt.initial r false, Slot.free⟩).addPart n
  (u.setMeterStation n (some r.meter)).hand [.target n, .headEval n, s.districtWritten n r, .shed n, .boostCheck n]

/-- The write names another governor station while the governor slot is not FREE (04 R82 step 2). -/
def State.governorHeld (s : State) (n : Nat) (r : DistrictRec) : Bool :=
  match s.district n with
  | some x => x.tab.governor != r.governor && !slotFree x.slot
  | none => false

/-- 04 R82. -/
def State.writeDistrict (s : State) (tag n prior : Nat) (r : DistrictRec) : State :=
  s.checked tag prior (checkDistrict r) fun s =>
    if s.governorHeld n r then s.reply tag 2 .badState []
    else match s.examineBindings (districtBindings n r) with
      | some e => (s.countRefusal e).reply tag 2 e []
      | none => (s.takeDistrict n r).taken tag

/-- The booster is in use, or its slot is not FREE (05 R101, 10 R197). -/
def boosterBusy (x : Booster) : Bool := holdsDistrict x || x.state == .stopping || !slotFree x.slot

/-- A taken booster write (05 R101), which leaves failure cause and running sample (log entry 98). -/
def State.takeBooster (s : State) (n : Nat) (r : BoosterRec) : State :=
  let t := s.rebind [.booster n] [(.booster n, r.station)]
  (match s.booster n with
    | some x => t.setBooster n { x with tab := r, damaged := false, state := writtenState r.inService x.state }
    | none => t.setBooster n (Booster.initial r false)).hand [.grants]

/-- 05 R101. -/
def State.writeBooster (s : State) (tag n prior : Nat) (r : BoosterRec) : State :=
  s.checked tag prior (checkBooster r) fun s =>
    let busy := match s.booster n with
      | some x => boosterBusy x
      | none => false
    if busy then s.reply tag 2 .badState []
    else match s.examineBindings [(.booster n, r.station)] with
      | some e => (s.countRefusal e).reply tag 2 e []
      | none => (s.takeBooster n r).taken tag

/-- 06 R119. -/
def State.writeMeter (s : State) (tag n prior weight limit : Nat) : State :=
  s.checked tag prior (checkMeter weight limit) fun s =>
    (s.setMeter n { s.meter n with weight := weight, limit := limit, damaged := false }).taken tag

/-- 10 Table 10.4, and the reserve checks of 05 R113. A value of two words has the place of its high word (the model's choice, log entry
117). -/
def checkYard (r : YardRec) : EntryCheck :=
  checkEntry
    ([(0, inRange 10 300 r.park), (1, inRange 1 120 r.turnPeriod), (2, inRange 5 50 r.margin), (3, inRange 0 9999999 r.mark1),
      (5, inRange 0 9999999 r.mark2), (7, inRange 0 9999999 r.mark3), (9, inRange 0 999999 r.hyst), (11, inRange 1 120 r.recovery)]
    ++ [(12, inRange 0 8 r.cut1), (13, inRange 0 8 r.cut2), (14, inRange 0 8 r.cut3), (15, inRange 1 60 r.releaseHold),
      (16, match r.makeMeter with
        | none => true
        | some st => inRange 1 199 st),
      (17, inRange 0 999999 r.tolerance), (19, [5, 15, 30, 60].contains r.interval),
      (20, match r.aging with
        | none => true
        | some p => [1, 5, 20].contains p),
      (21, inRange 2 120 r.cyclePeriod), (22, inRange 1 15 r.lostThreshold)])
    (decide (r.mark2 ≤ r.mark1 ∧ r.mark3 ≤ r.mark2 ∧ r.cut2 ≤ r.cut1 ∧ r.cut3 ≤ r.cut2))

/-- A taken yard record write (10 R198, 06 R120, 11 R213). -/
def State.takeYard (s : State) (r : YardRec) : State :=
  let news : List (Binding × Nat) := match r.makeMeter with
    | some st => [(.makeMeter, st)]
    | none => []
  let t := s.rebind [.makeMeter] news
  let u : State := { t with yard := r, yardPresent := true, yardDamaged := false }
  let v := u.setMeterStation 0 r.makeMeter
  (if r.autoRun then v else v.cancelAutoRun).yardTaken s.yardNow

/-- 10 R198. -/
def State.writeYard (s : State) (tag prior : Nat) (r : YardRec) : State :=
  s.checked tag prior (checkYard r) fun s =>
    match s.examineBindings (match r.makeMeter with
      | some st => [(.makeMeter, st)]
      | none => []) with
    | some e => (s.countRefusal e).reply tag 2 e []
    | none => (s.takeYard r).taken tag

/-- 07 Table 7.12. -/
def checkLine (r : LineSet) : EntryCheck :=
  checkEntry [(0, [9600, 19200].contains r.rate), (1, inRange 1 8 r.w1), (2, inRange 1 8 r.w2), (3, inRange 0 63 r.budget)] true

/-- 07 R154. -/
def State.writeLine (s : State) (tag n prior : Nat) (r : LineSet) : State :=
  s.checked tag prior (checkLine r) fun s =>
    match lineOfNum n with
    | some l => (s.modLine l fun u => { u with set := r, damaged := false }).taken tag
    | none => s.bad tag 2 3

/-- 09 Table 9.1. -/
def checkPoll (r : PollRec) : EntryCheck :=
  checkEntry [(0, inRange 1 199 r.station), (2, inRange 0 3 r.retries), (3, inRange 0 4 r.cls), (6, inRange 1 16 r.nth)] true

/-- Another position holds an enabled entry for the station (09 R177). -/
def State.pollConflict (s : State) (n : Nat) (r : PollRec) : Bool :=
  r.enabled && s.polls.any fun p => p.1 != n && pollEnabled p.2 && p.2.tab.station == r.station

/-- A position emptied. -/
def State.emptyPoll (s : State) (n : Nat) : State :=
  { s with polls := tblDel s.polls n, pollHoles := setErase n s.pollHoles }

/-- A taken poll entry: its runtime is kept where the station is the one held (09 R177). -/
def State.takePoll (s : State) (n : Nat) (r : PollRec) : State :=
  let t : State := { s with pollHoles := setErase n s.pollHoles }
  match s.poll n with
  | some p => if p.tab.station = r.station then t.setPoll n { p with tab := r, damaged := false } else t.setPoll n (pollInitial r false)
  | none => t.setPoll n (pollInitial r false)

/-- 09 R177. -/
def State.writePoll (s : State) (tag n prior : Nat) (r : PollRec) : State :=
  s.checked tag prior (checkPoll r) fun s =>
    if s.pollConflict n r then s.reply tag 2 .conflict [] else (s.takePoll n r).taken tag

/-- 08 R165; a station in range that is not the index written is BAD (the model's choice, log entry 58). -/
def State.writeDir (s : State) (tag n prior : Nat) (r : DirWrite) : State :=
  s.checked tag prior (checkEntry [(0, r.station == n && inRange 1 199 r.station)] true) fun s =>
    match s.writeDirectory r with
    | .ok t => t.taken tag
    | .error e => (s.countRefusal e).reply tag 2 e []

/-- 03 R72. -/
def State.writeDraw (s : State) (tag prior : Nat) (r : DrawRec) : State :=
  s.checked tag prior (checkDraw r) fun s =>
    ((s.modDraw fun d => { d with tab := r, recDamaged := false }).hand [.drawCall]).taken tag

/-! ### Removal (10 R197) -/

def State.removeHolder (s : State) (tag n : Nat) : State :=
  if (s.holder n).isNone then s.reply tag 2 .notFound []
  else if s.acting then s.reply tag 2 .badState []
  else (s.dropHolder n).taken tag

/-- A valve record is removed (10 R197), which is handed on as a change of valve state (the model's choice, log entry 85). -/
def State.removeValve (s : State) (tag n : Nat) : State :=
  if (s.valve n).isNone then s.reply tag 2 .notFound []
  else if !s.valveFree n || s.valveParked n then s.reply tag 2 .badState []
  else ((({ s with valves := tblDel s.valves n } : State).unbind (.valve n)).hand [.valveTold n false true]).taken tag

/-- A district record is removed (10 R197); a booster it holds keeps what R109 of file 05 gives it (log entry 98). -/
def State.removeDistrict (s : State) (tag n : Nat) : State :=
  match s.district n with
  | none => s.reply tag 2 .notFound []
  | some x =>
    if !slotFree x.slot then s.reply tag 2 .badState []
    else
      let t : State := { s with districts := tblDel s.districts n }
      let u := ((t.unbind (.governor n)).unbind (.recorder n)).unbind (.meter n)
      ((u.setMeterStation n none).hand [.districtOut n]).taken tag

def State.removeBooster (s : State) (tag n : Nat) : State :=
  match s.booster n with
  | none => s.reply tag 2 .notFound []
  | some x =>
    if boosterBusy x then s.reply tag 2 .badState []
    else (({ s with boosters := tblDel s.boosters n } : State).unbind (.booster n)).taken tag

/-- The EMPTY mark acts in a part: at a holder, valve, district or booster record only where the part is part 0 with the final mark, at
every other entry in any part (10 R197; what the rule leaves open: log entry 125). -/
def emptyActs (table part : Nat) (final empty : Bool) : Bool :=
  empty && (!([1, 2, 3, 4].contains table) || (part == 0 && final))

/-- An EMPTY mark that acts: a record is removed, a poll list position emptied, any other entry answered BAD. -/
def State.removeEntryOf (s : State) (tag table index : Nat) : State :=
  match table with
  | 1 => s.removeHolder tag index
  | 2 => s.removeValve tag index
  | 3 => s.removeDistrict tag index
  | 4 => s.removeBooster tag index
  | 9 => (s.emptyPoll index).taken tag
  | _ => s.bad tag 2 4

/-! ### WRITE ENTRY (10 R196) -/

/-- The entries written by WRITE ENTRY (10 Table 10.3). -/
def writable (table : Nat) : Bool := [1, 2, 3, 4, 5, 6, 7, 9, 11, 14].contains table

/-- The first case of 10 R196: the position of the word found wrong. -/
def writeRefusal (table index part : Nat) : Option Nat :=
  match indexOk table index with
  | none => some 2
  | some ok => if !writable table then some 2 else if !ok then some 3 else if 3 < part then some 4 else none

/-- Words read as an entry: BAD where they do not make up its form. -/
def State.formed {α : Type} (s : State) (tag prior : Nat) (e : Except Nat α) (go : α → State) : State :=
  match e with
  | .ok a => go a
  | .error i => s.badEntry tag prior i

/-- A whole entry is written; its first `prior` words came in earlier parts. -/
def State.writeWhole (s : State) (tag table n prior : Nat) (words : List Word) : State :=
  let ws := nats words
  match table with
  | 1 => s.formed tag prior (decodeHolder ws) (s.writeHolder tag n prior)
  | 2 => s.formed tag prior (decodeValve ws) (s.writeValve tag n prior)
  | 3 => s.formed tag prior (decodeDistrict ws) (s.writeDistrict tag n prior)
  | 4 => s.formed tag prior (decodeBooster ws) (s.writeBooster tag n prior)
  | 5 => match ws with
    | [w, l] => s.writeMeter tag n prior w l
    | _ => s.badEntry tag prior (wrongLength 2 ws)
  | 6 => s.formed tag prior (decodeYard ws) (s.writeYard tag prior)
  | 7 => s.formed tag prior (decodeLine ws) (s.writeLine tag n prior)
  | 9 => s.formed tag prior (decodePoll ws) (s.writePoll tag n prior)
  | 11 => s.formed tag prior (decodeDir ws) (s.writeDir tag n prior)
  | _ => s.formed tag prior (decodeDraw ws) (s.writeDraw tag prior)

def State.setStaged (s : State) (g : Option Staged) : State := { s with desk := { s.desk with staged := g } }

/-- A part whose place in the staged write is right, after the words already staged; the staged write ends with an EMPTY mark that acts,
whatever words come with it (the model's choices, log entries 125 and 115). -/
def State.acceptPart (s : State) (tag table index part : Nat) (final empty : Bool) (before words : List Word) : State :=
  if emptyActs table part final empty then (s.setStaged none).removeEntryOf tag table index
  else if final then (s.setStaged none).writeWhole tag table index before.length (before ++ words)
  else (s.setStaged (some ⟨table, index, before ++ words, part + 1⟩)).reply tag 2 .done [part + 1]

/-- WRITE ENTRY (10 R196, R197). -/
def State.doWriteEntry (s : State) (tag table index part : Nat) (final empty : Bool) (words : List Word) : State :=
  match writeRefusal table index part with
  | some p => s.bad tag 2 p
  | none =>
    if part = 0 then (s.setStaged none).acceptPart tag table index 0 final empty [] words
    else match s.desk.staged with
      | none => s.reply tag 2 .badState []
      | some g =>
        if g.table = table ∧ g.index = index ∧ g.next = part then s.acceptPart tag table index part final empty g.words words
        else (s.setStaged none).reply tag 2 .badState []

/-- A whole entry of known fields is written (the WRITE rows; log entry 1): the index is checked and the staged write ends. -/
def State.writeTyped (s : State) (tag table index : Nat) (go : State → State) : State :=
  match writeRefusal table index 0 with
  | some p => s.bad tag 2 p
  | none => go (s.setStaged none)

/-! ### Requests by their codes (10 R192) -/

/-- A decoded request is acted on, or handed to the unit that owns the state. -/
def State.perform (s : State) (tag : Nat) (fs : Findings) : Request → State
  | .readEntry t i p => s.doReadEntry tag t i p fs
  | .writeEntry t i p f e ws => s.doWriteEntry tag t i p f e ws
  | .run => s.doRun tag
  | .hold => s.doHold tag
  | .standby => s.doStandby tag
  | .restart => s.doRestart tag
  | .setClock d sec => s.doSetClock tag d sec
  | .setFlags c => s.doSetFlags tag c
  | .readNotices n => s.doReadNotices tag n
  | .readCounts g c => s.doReadCounts tag g c
  | .watch st m => s.doWatch tag st m
  | .search a b c d => s.doSearch tag a b c d
  | .delete st => s.doDelete tag st
  | .clear => s.doClear tag
  | .tableCheck => s.doTableCheck tag
  | .storeTables k => s.doStoreTables tag k fs
  | .readHolder n => s.doReadHolder tag n
  | .bar n sel => s.doBar tag 19 n sel true
  | .unbar n sel => s.doBar tag 20 n sel false
  | .clearFault n => s.doClearFault tag n
  | .readValve n => s.doReadValve tag n
  | .loadRota ts => s.doLoadRota tag ts
  | .startRota => s.doStartRota tag
  | .stopRota => s.doStopRota tag
  | .setDrawMode m => s.doSetDrawMode tag m
  | .setDistrictMode n m => s.doSetDistrictMode tag n m
  | .readDistrict n => s.doReadDistrict tag n
  | .setPoolMode m => s.doSetPoolMode tag m
  | .freeBooster n => s.doFreeBooster tag n
  | .readBoosters => s.doReadBoosters tag
  | .readAccount k p => s.doReadAccount tag k p
  | .releaseAccount n => s.doReleaseAccount tag n

/-- The answer BAD to an ASK whose form is wrong, with what else every answer to its request carries (06 R133, 08 R172,
10 R199); a RUN, HOLD, STANDBY or RESTART answered so cancels the auto-run (11 R213). -/
def State.badForm (s : State) (tag code position : Nat) : State :=
  match code with
  | 3 | 4 | 5 | 6 => s.cancelAutoRun.hand [.replyRunState tag code .bad none [position]]
  | 11 => s.reply tag code .bad (position :: watchList s.dir)
  | 32 => s.reply tag code .bad (position :: s.ringWords)
  | _ => s.bad tag code position

/-- The body of an ASK is decoded and acted on, or answered BAD with word 1 echoed (10 R192); an empty body has no word to
echo (log entry 14). -/
def State.actAsk (s : State) (tag : Nat) (body : List Word) (fs : Findings) : State :=
  match decodeAsk body with
  | .ok q => s.perform tag fs q
  | .error p =>
    match body with
    | w :: _ => s.badForm tag w.toNat p
    | [] => ({ s with free := s.free + 1 } : State).bad tag (Config.freeWord s.free).toNat p

/-- An ASK to station 0 at the desk request unit (10 R192, R194). -/
def State.serveAsk (s : State) (h : AskHead) (body : List Word) (fs : Findings) : State :=
  match body with
  | w :: _ => s.takeAsk h w.toNat fun t => t.actAsk h.tag body fs
  | [] => if s.deskServes then s.actAsk h.tag body fs else s

/-- The head of the desk receive buffer is taken by one of its three parties (07 R144). -/
def State.serveDesk (s : State) (fs : Findings) : State :=
  if s.deskServes then
    match s.desk.rx with
    | [] => s
    | t :: rest =>
      let u : State := { s with desk := { s.desk with rx := rest } }
      match t.kind with
      | .ask => if t.dest = 0 then u.serveAsk ⟨t.tag, t.rept⟩ t.body fs else u.deskStray
      | .poll | .order => u.forward (deskTelegramOf t)
      | _ => u.deskStray
  else s

end Sys2Proof.Machine
end

