-- ==== Sys2Proof/Machine/Handoffs.lean ====
section
/-! DEFINITION. What one unit hands to another inside a step (log entry 3): each hand-off acted on, depth first, in the
order the units make them. -/

namespace Sys2Proof.Machine

/-- A valve's outcome after which the units test their conditions again at once; of a judged valve they learn by its state
and its holder's (02 R42). -/
def testsAgain : SlotOutcome → List Handoff
  | .stuck | .unknown => []
  | _ => [.fillTest, .drawStep]

/-- A slot's outcome at the owner of its origin (02 R37, R47, R49, R50). -/
def State.outcomeActs (s : State) (t : Target) (code : OrderCode) (origin : Origin) (tag : Option DeskRef) (o : SlotOutcome)
    (owed : Bool := false) : State :=
  let u := match deskOf origin tag, o with
    | some g, .superseded => s.answerOrder g .superseded none owed
    | _, _ => s
  match t with
  | .valve v =>
    ((if origin = .fill then u.fillOutcome v code o else u).drawOutcome v code origin o).hand (testsAgain o)
  | .governor d => u.governorOutcome d o
  | .booster b => u.boosterOutcome b code o

/-- A valve's state told to the holder unit, and a changed one to the fill and draw unit (02 R33). -/
def State.valveActs (s : State) (v : Nat) (byReport changed : Bool) : State :=
  (s.holderValve v byReport changed).hand (if changed then [.fillValve v, .drawOutlet v, .mainPressure] else [])

/-- A holder's state, pressure or stock told to the units that use it (01 R11). -/
def State.holderActs (s : State) (h : Nat) (entered : Bool) : State :=
  (if entered then s.markHolderBlind h else s).hand
    ((if entered then [.fillTold h, .drawTold] else []) ++ [.mainPressure, .usable])

/-- One hand-off acted on by the unit it is made to; `owed` says that the telegram being served still waits for its ANSWER. -/
def act (h : Handoff) (s : State) (owed : Bool := false) : State :=
  match h with
  | .claim t code arg origin tag => s.claim t code arg origin tag owed
  | .orderEnded t e => s.orderEnded t e
  | .outcome t code origin tag o => s.outcomeActs t code origin tag o owed
  | .valveTold v byReport changed => s.valveActs v byReport changed
  | .judge v r => s.judgeCheck v r
  | .topGuard n => s.topGuard n
  | .regate n => s.regate n owed
  | .addCause n c => s.addCause n c
  | .holderNotice n st => s.notify .holderState (.holder n) (.one (hStateCode st))
  | .holderTold n entered => s.holderActs n entered
  | .safetyExamine => s.safetyExamine
  | .safetyExamineOne n => s.safetyExamineOne n
  | .fillTold n => s.fillTold n
  | .fillBar n set => (s.fillBarTold n set).hand [.drawTold]
  | .drawBar _ set => s.drawTold.hand (if set then [] else s.unplacedRetry)
  | .fillValve v => s.fillValve v
  | .fillGrace n => s.fillUnable n false
  | .fillSelect => s.fillSelect
  | .fillTest => s.fillTest
  | .fillCycle => s.fillCycle
  | .fillStrays => s.fillStrays
  | .fillStray n => s.fillStray n
  | .fillRun => s.fillRun
  | .drawTold => s.drawTold
  | .drawOutlet v => s.drawOutlet v
  | .drawCall => s.drawCall
  | .drawStep => s.drawStep
  | .drawOpen h => s.drawOpen h
  | .drawShut h => s.drawShut h
  | .drawFinish => s.drawFinish
  | .drawCycle => s.drawCycle
  | .drawRun => s.hand s.drawRun
  | .mainPressure => s.mainPressure
  | .noDrawCheck => s.noDrawCheck
  | .target d => s.retarget d
  | .headAll => s.headAll
  | .headEval d => s.headEval d
  | .districtDerive d => s.districtDerive d
  | .districtAfresh d => s.districtAfresh d
  | .loop d p => s.governorLoop d p
  | .evaluated d => s.releaseCheck d
  | .boostCheck d => s.boostCheck d
  | .headShort d => s.joinQueue d
  | .headClear d => s.leaveQueue d
  | .districtOut d => s.districtWentOut d
  | .sweep => s.queueSweep
  | .grants => s.grant
  | .boosterStop b c => s.boosterStop b c
  | .stopsDue => s.stopsDue
  | .boosterDue b => s.boosterDue b
  | .usable => s.usableNow
  | .levelEval => s.levelEval
  | .shedAll => s.shedAll
  | .shed d => s.shedEval d
  | .stationLost st => s.ownerLost st
  | .owner t => s.owner t
  | .relayOut c l t => s.relayOut c l t
  | .lineIdle l => s.lineIdle l
  | .reply tag c r why d => s.giveAnswer tag c r why d
  | .replyRunState tag c r why ws => s.giveAnswer tag c r why (.words (ws ++ [runStateCode s.runState]))
  | .replyFlags tag => s.giveAnswer tag 8 .done none (.words [s.flags.toNat])
  | .blockBad code => s.notify .storeBlockBad .none (.one code)
  | .damaged r => s.damageActs (.manual, .manual) s.yardNow r

/-- The hand-off is a desk request's own ANSWER, made last (10 R192). -/
def Handoff.isReply : Handoff → Bool
  | .reply .. | .replyRunState .. | .replyFlags _ => true
  | _ => false

/-- A desk request's ANSWER stands among the hand-offs still to be acted on. -/
def owesAnswer (rest : List Handoff) : Bool := rest.any Handoff.isReply

/-- Hand-offs acted on one after another: those that one makes come before those that stood behind it. -/
def settle : Nat → State → State
  | 0, s => s
  | n + 1, s =>
    match s.handoffs with
    | [] => s
    | h :: rest =>
      let t := act h { s with handoffs := [] } (owesAnswer rest)
      settle n { t with handoffs := t.handoffs ++ rest }

/-- A command ends when what it handed on has been acted on. -/
def finish (s : State) : Host.Outcome State Fault Refusal := .next (settle Config.handoffBound s)

/-! ### The reads of a step (11 R208-R210) -/

/-- The errors that the reads of this step meet, acted on before what reads: each record is found corrected or damaged by the
command itself, and the sweep's counts are up to date when it ends (the model's choice of the order, log entry 10). -/
def State.errorsRead (s : State) : State := if s.mem.met = [] then s else settle Config.handoffBound s.meetErrors

/-- A command's own effect, on the state in which the errors that this step's reads meet have been found. -/
def afterReads (effect : State → State) (s : State) : Host.Outcome State Fault Refusal := finish (effect s.errorsRead)

end Sys2Proof.Machine
end

