-- ==== Sys2Proof/Machine/ExecLines.lean ====
section
/-! DEFINITION. The commands of the lines: receptions, transmissions, the attempt deadline and the chatter window. -/

namespace Sys2Proof.Machine

def State.modDesk (s : State) (f : Desk → Desk) : State := { s with desk := f s.desk }

/-- TELEGRAM_BEGINS (07 R142, R145). -/
def execTelegramBegins (l : LineId) : State → Host.Outcome State Fault Refusal :=
  afterReads fun s =>
    match l with
    | .d => s.modDesk fun d => { d with receiving := true }
    | .field f => if (s.line f).mode = .sending then s else s.modLine f fun u => { u with receiving := true }

/-- A line error on the desk line (07 R142). -/
def deskLineError (d : Desk) : Desk :=
  { d with receiving := false, counters := { d.counters with lineErrors := countUp d.counters.lineErrors } }

/-- A line error on a field line: counted, and the attempt awaited fails FORMAT (07 R142, R146). -/
def State.fieldLineError (s : State) (l : FLine) : State :=
  let t := s.modLine l fun u =>
    countLine (fun c => { c with lineErrors := countUp c.lineErrors }) { u with receiving := false }
  match awaited (t.line l) with
  | some e => t.attemptFails l e .format
  | none => t

/-- LINE_ERROR (07 R142); nothing is received while the line is SENDING. -/
def execLineError (l : LineId) (r : Reception) : State → Host.Outcome State Fault Refusal :=
  afterReads fun s =>
    match l with
    | .d => if (receive true r).isNone then s.modDesk deskLineError else s
    | .field f => if (receive false r).isNone && (s.line f).mode != .sending then s.fieldLineError f else s

/-- A good telegram on the desk line (07 R142, R144). -/
def deskArrival (t : Telegram) (d : Desk) : Desk :=
  let e := { d with receiving := false, counters := { d.counters with telegramsIn := countUp d.counters.telegramsIn } }
  if d.rx.length < Config.deskRxCap then { e with rx := d.rx ++ [t] }
  else { e with overrun := true, counters := { e.counters with overrun := countUp e.counters.overrun } }

/-- DESK_TELEGRAM_RECEIVED (07 R144). -/
def execDeskTelegramReceived (r : Reception) : State → Host.Outcome State Fault Refusal :=
  afterReads fun s =>
    match receive true r with
    | some t => s.modDesk (deskArrival t)
    | none => s

/-- DESK_BUFFER_SERVE (07 R144). -/
def execDeskBufferServe (fs : Findings) : State → Host.Outcome State Fault Refusal := afterReads fun s => s.serveDesk fs

/-- The head of the desk transmit queue has been sent as the telegram it becomes (07 R137, R150; log entry 20). -/
def deskSent (d : Desk) : Desk :=
  match d.tx with
  | [] => d
  | _ :: rest => { d with tx := rest, out := deskSending d.tx, counters := { d.counters with telegramsOut := countUp d.counters.telegramsOut } }

/-- DESK_TRANSMIT_DONE (07 R150). -/
def execDeskTransmitDone : State → Host.Outcome State Fault Refusal := afterReads fun s => s.modDesk deskSent

/-- A good telegram received on a field line, with its class; none for a line error or while SENDING (07 R142, R143, R145). -/
def State.fieldArrival (s : State) (l : FLine) (r : Reception) : Option (Telegram × FieldClass) :=
  if (s.line l).mode = .sending then none
  else match receive false r with
    | some t => some (t, fieldClass (s.line l) t)
    | none => none

/-- FIELD_REPLY_TAKEN (07 R146, R147). -/
def execFieldReplyTaken (l : FLine) (r : Reception) : State → Host.Outcome State Fault Refusal :=
  afterReads fun s =>
    match s.fieldArrival l r with
    | some (t, .reply e) => (s.goodTelegram l).endGood l e t
    | _ => s

/-- FIELD_ALERT_RECEIVED (07 R143, R153). -/
def execFieldAlertReceived (l : FLine) (r : Reception) : State → Host.Outcome State Fault Refusal :=
  afterReads fun s =>
    match s.fieldArrival l r with
    | some (t, .alert) => (s.goodTelegram l).alertTaken l t
    | _ => s

/-- FIELD_STRAY (07 R143). -/
def execFieldStray (l : FLine) (r : Reception) : State → Host.Outcome State Fault Refusal :=
  afterReads fun s =>
    match s.fieldArrival l r with
    | some (_, .stray) => (s.goodTelegram l).countStray l
    | _ => s

/-- A telegram that is to fail an attempt is counted, and where R143 makes it a stray as a stray too (07 R143, R146). -/
def State.wrongTelegram (s : State) (l : FLine) (t : Telegram) : State :=
  if strayBesides t then (s.goodTelegram l).countStray l else s.goodTelegram l

/-- REPLY_NOT_OF_RIGHT_FORM (07 R146). -/
def execReplyNotOfRightForm (l : FLine) (r : Reception) : State → Host.Outcome State Fault Refusal :=
  afterReads fun s =>
    match s.fieldArrival l r with
    | some (t, .wrongForm e) => (s.wrongTelegram l t).attemptFails l e .format
    | _ => s

/-- FIELD_SEND_START (07 R145, R146). -/
def execFieldSendStart (l : FLine) : State → Host.Outcome State Fault Refusal :=
  afterReads fun s =>
    let u := s.line l
    if u.receiving then s
    else match u.mode, u.selected, u.exch with
      | .idle, some o, _ => s.sendSelected l o
      | .awaiting, _, some e => if e.repeatDue then s.sendRepeat l e else s
      | _, _, _ => s

/-- FIELD_SEND_END (07 R145). -/
def execFieldSendEnd (l : FLine) : State → Host.Outcome State Fault Refusal :=
  afterReads fun s =>
    match (s.line l).mode, (s.line l).sending with
    | .sending, some (o, t) => s.sendEnds l o t
    | _, _ => s

/-- ATTEMPT_DEADLINE_EXPIRY (07 R146; log entry 6). -/
def execAttemptDeadlineExpiry (l : FLine) : State → Host.Outcome State Fault Refusal :=
  afterReads fun s =>
    match awaited (s.line l) with
    | some e => if e.deadline.isSome then s.attemptFails l e .noResponse else s
    | none => s

/-- The window timer expires: the ALERT count is 0 and the budget is taken afresh (07 R153). -/
def nextWindow (u : LineUnit) : LineUnit :=
  { u with alerts := 0, budget := (lineSet u).budget, windowDue := u.windowDue + Config.windowPeriod }

/-- CHATTER_WINDOW_EXPIRY (07 R153). -/
def execChatterWindowExpiry (l : FLine) : State → Host.Outcome State Fault Refusal :=
  afterReads fun s => if (s.line l).windowDue ≤ s.elapsed then s.modLine l nextWindow else s

end Sys2Proof.Machine
end

