-- ==== Sys2Proof/Machine/ExecTimers.lean ====
section
/-! DEFINITION. Start-up, the auto-run, the yard clock, the completions of the sweep and of the store write, and the timer
expiries: each expiry acts only when its timer runs and has reached its expiry (log entry 5). -/

namespace Sys2Proof.Machine

/-- POWER_ON_RESET (11 R212). -/
def execPowerOnReset (r : StoreRead) (s : State) : Host.Outcome State Fault Refusal := finish (s.startUp r)

/-- The second expiry of the cycle timer after start-up has come (11 R213). -/
def State.autoRunDue (s : State) : Bool :=
  s.mem.autoRun && (2 ≤ s.cycle.expiries || (s.cycle.expiries == 1 && decide (s.cycle.due ≤ s.elapsed)))

/-- The auto-run: a RUN request of the part's own (11 R213). -/
def State.makeAutoRun (s : State) : State :=
  let t := s.cancelAutoRun
  if s.running then t
  else match s.runRefusal with
    | some (r, ws) => t.notify .autoRunRefused .none (.pair (reasonCode r) (ws.headD 0))
    | none => t.enterRun

/-- AUTO_RUN (11 R213). -/
def execAutoRun : State → Host.Outcome State Fault Refusal := afterReads fun s => if s.autoRunDue then s.makeAutoRun else s

/-- The yard clock advanced by one second (10 R202). -/
def nextSecond (c : Clock) : Clock :=
  if c.second + 1 < Config.daySeconds then { c with second := c.second + 1 }
  else { c with second := 0, day := (c.day + 1) % Config.dayModulus }

/-- A second of the elapsed-second count, and the minute boundary it reaches (10 R202, 04 R87; log entry 7). -/
def State.tick (s : State) : State :=
  let c := nextSecond s.clock
  let elapsed := s.elapsed + 1
  let boundary := if c.set then c.second % 60 == 0 else elapsed % 60 == 0
  { s with elapsed := elapsed, clock := c, minuteDue := s.minuteDue || boundary }

/-- YARD_CLOCK_SECOND (10 R202). -/
def execYardClockSecond : State → Host.Outcome State Fault Refusal := afterReads fun s => s.tick

/-- TABLE_CHECK_DONE (11 R210). -/
def execTableCheckDone (fs : Findings) : State → Host.Outcome State Fault Refusal :=
  afterReads fun s =>
    if s.mem.sweep then
      let r := s.readRecords fs s.guarded
      (r.1.modMem fun m => { m with sweep := false }).notify .checkDone .none
        (.pair (s.mem.swept.1 + r.2.1) (s.mem.swept.2 + r.2.2))
    else s

/-- STORE_BLOCK_WRITTEN (11 R211). -/
def execStoreBlockWritten (good : Bool) : State → Host.Outcome State Fault Refusal :=
  afterReads fun s =>
    match s.mem.writing with
    | some w => s.blockWritten w good
    | none => s

/-- PARK_TIMER_EXPIRY (01 R24). -/
def execParkTimerExpiry (n : Nat) : State → Host.Outcome State Fault Refusal :=
  afterReads fun s =>
    match s.holder n with
    | some x => if s.reached (x.rt.park.map (·.due)) then s.answerParked n .tooLate else s
    | none => s

/-- CYCLE_EXPIRY (09 R179, 01 R19, 03 R63, R66, R70, R74). -/
def execCycleExpiry : State → Host.Outcome State Fault Refusal :=
  afterReads fun s => if s.cycle.due ≤ s.elapsed then s.cycleSteps.hand [.safetyExamine, .fillCycle, .drawCycle] else s

/-- BLIND_GRACE_EXPIRY (01 R21). -/
def execBlindGraceExpiry (n : Nat) : State → Host.Outcome State Fault Refusal :=
  afterReads fun s =>
    match s.holder n with
    | some x => if s.reached x.rt.graceDue then s.graceExpired n x else s
    | none => s

/-- Every holder at a rate-window expiry (01 R8). -/
def State.rateWindow (s : State) : State :=
  s.holders.foldl State.windowOne { s with rateDue := s.rateDue + Config.rateWindow }

/-- RATE_WINDOW_EXPIRY (01 R8). -/
def execRateWindowExpiry : State → Host.Outcome State Fault Refusal :=
  afterReads fun s => if s.rateDue ≤ s.elapsed then s.rateWindow else s

/-- TRAVEL_ALLOWANCE_EXPIRY (02 R41). -/
def execTravelAllowanceExpiry (v : Nat) : State → Host.Outcome State Fault Refusal :=
  afterReads fun s =>
    match s.slot (.valve v) with
    | some sl => if sl.state = .travel ∧ s.reached sl.deadline = true ∧ sl.checkPending = false then s.allowanceExpired v sl else s
    | none => s

/-- BOOSTER_DEADLINE_EXPIRY (02 R50). -/
def execBoosterDeadlineExpiry (b : Nat) : State → Host.Outcome State Fault Refusal :=
  afterReads fun s =>
    match s.slot (.booster b) with
    | some sl =>
      if sl.state = .travel ∧ s.reached sl.deadline = true then
        s.failBoosterOrder b sl (if s.isLost (s.targetStation (.booster b)) then .stationLost else .allowance)
      else s
    | none => s

/-- TURN_TIMER_EXPIRY (03 R56). -/
def execTurnTimerExpiry : State → Host.Outcome State Fault Refusal :=
  afterReads fun s =>
    match s.fill.turnDue with
    | some t => if t ≤ s.elapsed then s.turnBoundary t else s
    | none => s

/-- DEFERRAL_DEADLINE_EXPIRY (03 R64); the deadline is absent from here on (the model's choice, log entry 76). -/
def execDeferralDeadlineExpiry : State → Host.Outcome State Fault Refusal :=
  afterReads fun s =>
    match s.fill.chg with
    | some c =>
      if s.reached c.deferral then
        (s.modFill fun f => { f with chg := some { c with deferral := none, waived := true } }).hand [.fillTest]
      else s
    | none => s

/-- SETTLE_EXPIRY (04 R94). -/
def execSettleExpiry (d : Nat) : State → Host.Outcome State Fault Refusal :=
  afterReads fun s =>
    match s.district d with
    | some x => if s.reached x.rt.settleDue then s.setDistrict d { x with rt := { x.rt with settleDue := none } } else s
    | none => s

/-- MINUTE_BOUNDARY (04 R87). -/
def execMinuteBoundary : State → Host.Outcome State Fault Refusal := afterReads fun s => if s.minuteDue then s.minuteNow else s

/-- RELEASE_HOLD_EXPIRY (05 R108, R109). -/
def execReleaseHoldExpiry (b : Nat) : State → Host.Outcome State Fault Refusal :=
  afterReads fun s =>
    match s.booster b with
    | some x => if s.reached x.releaseDue then (s.setBooster b { x with releaseDue := none }).boosterStop b .release else s
    | none => s

/-- UNDECIDED_DEADLINE_EXPIRY (05 R118): also a booster written OUT meanwhile becomes FAILED (the model's choice, log entry 93). -/
def execUndecidedDeadlineExpiry (b : Nat) : State → Host.Outcome State Fault Refusal :=
  afterReads fun s =>
    match s.booster b with
    | some x => if s.reached x.undecided then (s.setBooster b { x with undecided := none }).boosterFails b .allowance else s
    | none => s

/-- RECOVERY_EXPIRY (05 R114). -/
def execRecoveryExpiry : State → Host.Outcome State Fault Refusal :=
  afterReads fun s => if s.reached s.pool.recoveryDue then s.setLevel (s.pool.level - 1) else s

/-- ACCOUNT_CLOSE_DUE (06 R129, R131); a minute boundary reached with it comes first (06 R127). -/
def execAccountCloseDue : State → Host.Outcome State Fault Refusal :=
  afterReads fun s => if s.acct.openAcct.closeDue ≤ s.elapsed then (if s.minuteDue then s.minuteNow else s).accountDue else s

/-- AGING_EXPIRY (08 R162). -/
def execAgingExpiry : State → Host.Outcome State Fault Refusal :=
  afterReads fun s =>
    match s.relay.agingDue with
    | some t =>
      if t ≤ s.elapsed then
        { s with dir := agingSweep s.dir, relay := { s.relay with agingDue := s.yardNow.aging.map fun p => t + 60 * p } }
      else s
    | none => s

end Sys2Proof.Machine
end

