-- ==== Sys2Proof/Machine/ExecDesk.lean ====
section
/-! DEFINITION. The commands of the desk: an ASK taken by the desk request unit, one definition for each request row, and the
POLLs and ORDERs taken by the relay unit. -/

namespace Sys2Proof.Machine

/-- ASK_MALFORMED (10 R192). -/
def execAskMalformed (h : AskHead) (body : List Word) : State → Host.Outcome State Fault Refusal := afterReads fun s => s.serveAsk h body []

/-- ASK_REPEAT (10 R194). -/
def execAskRepeat (h : AskHead) (body : List Word) : State → Host.Outcome State Fault Refusal := afterReads fun s => s.serveAsk h body []

/-- READ_ENTRY (10 R195). -/
def execReadEntry (h : AskHead) (table index part : Nat) (fs : Findings) : State → Host.Outcome State Fault Refusal :=
  afterReads fun s => s.takeAsk h 1 fun t => t.doReadEntry h.tag table index part fs

/-- WRITE_ENTRY_PART (10 R196). -/
def execWriteEntryPart (h : AskHead) (table index part : Nat) (empty : Bool) (words : List Word) : State → Host.Outcome State Fault Refusal :=
  afterReads fun s => s.takeAsk h 2 fun t => t.doWriteEntry h.tag table index part false empty words

/-- WRITE_HOLDER_RECORD (01 R2, R3). -/
def execWriteHolderRecord (h : AskHead) (n : Nat) (r : HolderRec) : State → Host.Outcome State Fault Refusal :=
  afterReads fun s => s.takeAsk h 2 fun t => t.writeTyped h.tag 1 n fun u => u.writeHolder h.tag n 0 r

/-- WRITE_VALVE_RECORD (02 R32). -/
def execWriteValveRecord (h : AskHead) (n : Nat) (r : ValveRec) : State → Host.Outcome State Fault Refusal :=
  afterReads fun s => s.takeAsk h 2 fun t => t.writeTyped h.tag 2 n fun u => u.writeValve h.tag n 0 r

/-- WRITE_DISTRICT_RECORD (04 R82). -/
def execWriteDistrictRecord (h : AskHead) (n : Nat) (r : DistrictRec) : State → Host.Outcome State Fault Refusal :=
  afterReads fun s => s.takeAsk h 2 fun t => t.writeTyped h.tag 3 n fun u => u.writeDistrict h.tag n 28 r

/-- WRITE_BOOSTER_RECORD (05 R101). -/
def execWriteBoosterRecord (h : AskHead) (n : Nat) (r : BoosterRec) : State → Host.Outcome State Fault Refusal :=
  afterReads fun s => s.takeAsk h 2 fun t => t.writeTyped h.tag 4 n fun u => u.writeBooster h.tag n 0 r

/-- WRITE_METER_ENTRY (06 R119). -/
def execWriteMeterEntry (h : AskHead) (n weight limit : Nat) : State → Host.Outcome State Fault Refusal :=
  afterReads fun s => s.takeAsk h 2 fun t => t.writeTyped h.tag 5 n fun u => u.writeMeter h.tag n 0 weight limit

/-- WRITE_YARD_RECORD (10 R198). -/
def execWriteYardRecord (h : AskHead) (r : YardRec) : State → Host.Outcome State Fault Refusal :=
  afterReads fun s => s.takeAsk h 2 fun t => t.writeTyped h.tag 6 0 fun u => u.writeYard h.tag 0 r

/-- WRITE_LINE_TABLE (07 R154). -/
def execWriteLineTable (h : AskHead) (n : Nat) (r : LineSet) : State → Host.Outcome State Fault Refusal :=
  afterReads fun s => s.takeAsk h 2 fun t => t.writeTyped h.tag 7 n fun u => u.writeLine h.tag n 0 r

/-- WRITE_POLL_POSITION (09 R177, 10 R197). -/
def execWritePollPosition (h : AskHead) (n : Nat) (r : Option PollRec) : State → Host.Outcome State Fault Refusal :=
  afterReads fun s =>
    s.takeAsk h 2 fun t => t.writeTyped h.tag 9 n fun u => match r with
    | some p => u.writePoll h.tag n 0 p
    | none => u.removeEntryOf h.tag 9 n

/-- WRITE_DIRECTORY_ENTRY (08 R165). -/
def execWriteDirectoryEntry (h : AskHead) (n : Nat) (r : DirWrite) : State → Host.Outcome State Fault Refusal :=
  afterReads fun s => s.takeAsk h 2 fun t => t.writeTyped h.tag 11 n fun u => u.writeDir h.tag n 0 r

/-- WRITE_DRAW_RECORD (03 R72). -/
def execWriteDrawRecord (h : AskHead) (r : DrawRec) : State → Host.Outcome State Fault Refusal :=
  afterReads fun s => s.takeAsk h 2 fun t => t.writeTyped h.tag 14 0 fun u => u.writeDraw h.tag 0 r

/-- REMOVE_RECORD (10 R197). -/
def execRemoveRecord (h : AskHead) (table index : Nat) : State → Host.Outcome State Fault Refusal :=
  afterReads fun s => s.takeAsk h 2 fun t => t.doWriteEntry h.tag table index 0 true true []

/-- RUN (10 R199). -/
def execRun (h : AskHead) : State → Host.Outcome State Fault Refusal :=
  afterReads fun s => s.takeAsk h 3 fun t => t.doRun h.tag

/-- HOLD (10 R200). -/
def execHold (h : AskHead) : State → Host.Outcome State Fault Refusal :=
  afterReads fun s => s.takeAsk h 4 fun t => t.doHold h.tag

/-- STANDBY (10 R200). -/
def execStandby (h : AskHead) : State → Host.Outcome State Fault Refusal :=
  afterReads fun s => s.takeAsk h 5 fun t => t.doStandby h.tag

/-- RESTART (10 R201, 07 R157). -/
def execRestart (h : AskHead) : State → Host.Outcome State Fault Refusal :=
  afterReads fun s => s.takeAsk h 6 fun t => t.doRestart h.tag

/-- SET_CLOCK (10 R202). -/
def execSetClock (h : AskHead) (day second : Nat) : State → Host.Outcome State Fault Refusal :=
  afterReads fun s => s.takeAsk h 7 fun t => t.doSetClock h.tag day second

/-- SET_FLAGS (10 R203). -/
def execSetFlags (h : AskHead) (codes : Word) : State → Host.Outcome State Fault Refusal :=
  afterReads fun s => s.takeAsk h 8 fun t => t.doSetFlags h.tag codes

/-- READ_NOTICES (10 R205). -/
def execReadNotices (h : AskHead) (count : Nat) : State → Host.Outcome State Fault Refusal :=
  afterReads fun s => s.takeAsk h 9 fun t => t.doReadNotices h.tag count

/-- READ_COUNTS (10 R206). -/
def execReadCounts (h : AskHead) (group clear : Nat) : State → Host.Outcome State Fault Refusal :=
  afterReads fun s => s.takeAsk h 10 fun t => t.doReadCounts h.tag group clear

/-- WATCH (08 R172). -/
def execWatch (h : AskHead) (station setting : Nat) : State → Host.Outcome State Fault Refusal :=
  afterReads fun s => s.takeAsk h 11 fun t => t.doWatch h.tag station setting

/-- SEARCH (08 R173). -/
def execSearch (h : AskHead) (start line kind group : Nat) : State → Host.Outcome State Fault Refusal :=
  afterReads fun s => s.takeAsk h 12 fun t => t.doSearch h.tag start line kind group

/-- DELETE (08 R174). -/
def execDelete (h : AskHead) (station : Nat) : State → Host.Outcome State Fault Refusal :=
  afterReads fun s => s.takeAsk h 13 fun t => t.doDelete h.tag station

/-- CLEAR (08 R174). -/
def execClear (h : AskHead) : State → Host.Outcome State Fault Refusal :=
  afterReads fun s => s.takeAsk h 14 fun t => t.doClear h.tag

/-- TABLE_CHECK (11 R210). -/
def execTableCheck (h : AskHead) : State → Host.Outcome State Fault Refusal :=
  afterReads fun s => s.takeAsk h 15 fun t => t.doTableCheck h.tag

/-- STORE_TABLES (11 R211). -/
def execStoreTables (h : AskHead) (skip : Word) (fs : Findings) : State → Host.Outcome State Fault Refusal :=
  afterReads fun s => s.takeAsk h 16 fun t => t.doStoreTables h.tag skip fs

/-- READ_HOLDER (01 R26). -/
def execReadHolder (h : AskHead) (n : Nat) : State → Host.Outcome State Fault Refusal :=
  afterReads fun s => s.takeAsk h 18 fun t => t.doReadHolder h.tag n

/-- BAR (01 R25). -/
def execBar (h : AskHead) (n sel : Nat) : State → Host.Outcome State Fault Refusal :=
  afterReads fun s => s.takeAsk h 19 fun t => t.doBar h.tag 19 n sel true

/-- UNBAR (01 R25). -/
def execUnbar (h : AskHead) (n sel : Nat) : State → Host.Outcome State Fault Refusal :=
  afterReads fun s => s.takeAsk h 20 fun t => t.doBar h.tag 20 n sel false

/-- CLEAR_FAULT (01 R14). -/
def execClearFault (h : AskHead) (n : Nat) : State → Host.Outcome State Fault Refusal :=
  afterReads fun s => s.takeAsk h 21 fun t => t.doClearFault h.tag n

/-- READ_VALVE (02 R51). -/
def execReadValve (h : AskHead) (n : Nat) : State → Host.Outcome State Fault Refusal :=
  afterReads fun s => s.takeAsk h 22 fun t => t.doReadValve h.tag n

/-- LOAD_ROTA (03 R54). -/
def execLoadRota (h : AskHead) (turns : List Nat) : State → Host.Outcome State Fault Refusal :=
  afterReads fun s => s.takeAsk h 23 fun t => t.doLoadRota h.tag turns

/-- START_ROTA (03 R57). -/
def execStartRota (h : AskHead) : State → Host.Outcome State Fault Refusal :=
  afterReads fun s => s.takeAsk h 24 fun t => t.doStartRota h.tag

/-- STOP_ROTA (03 R58). -/
def execStopRota (h : AskHead) : State → Host.Outcome State Fault Refusal :=
  afterReads fun s => s.takeAsk h 25 fun t => t.doStopRota h.tag

/-- SET_DRAW_MODE (03 R72, R76). -/
def execSetDrawMode (h : AskHead) (mode : Nat) : State → Host.Outcome State Fault Refusal :=
  afterReads fun s => s.takeAsk h 26 fun t => t.doSetDrawMode h.tag mode

/-- SET_DISTRICT_MODE (04 R96). -/
def execSetDistrictMode (h : AskHead) (n mode : Nat) : State → Host.Outcome State Fault Refusal :=
  afterReads fun s => s.takeAsk h 27 fun t => t.doSetDistrictMode h.tag n mode

/-- READ_DISTRICT (04 R98). -/
def execReadDistrict (h : AskHead) (n : Nat) : State → Host.Outcome State Fault Refusal :=
  afterReads fun s => s.takeAsk h 28 fun t => t.doReadDistrict h.tag n

/-- SET_POOL_MODE (05 R102). -/
def execSetPoolMode (h : AskHead) (mode : Nat) : State → Host.Outcome State Fault Refusal :=
  afterReads fun s => s.takeAsk h 29 fun t => t.doSetPoolMode h.tag mode

/-- FREE_BOOSTER (05 R111). -/
def execFreeBooster (h : AskHead) (n : Nat) : State → Host.Outcome State Fault Refusal :=
  afterReads fun s => s.takeAsk h 30 fun t => t.doFreeBooster h.tag n

/-- READ_BOOSTERS (05 R116). -/
def execReadBoosters (h : AskHead) : State → Host.Outcome State Fault Refusal :=
  afterReads fun s => s.takeAsk h 31 fun t => t.doReadBoosters h.tag

/-- READ_ACCOUNT (06 R133). -/
def execReadAccount (h : AskHead) (pick part : Nat) : State → Host.Outcome State Fault Refusal :=
  afterReads fun s => s.takeAsk h 32 fun t => t.doReadAccount h.tag pick part

/-- RELEASE_ACCOUNT (06 R134). -/
def execReleaseAccount (h : AskHead) (number : Nat) : State → Host.Outcome State Fault Refusal :=
  afterReads fun s => s.takeAsk h 33 fun t => t.doReleaseAccount h.tag number

/-- A desk POLL or ORDER taken by the relay unit, only while an answer finds room (07 R144). -/
def State.takeDesk (s : State) (t : DeskTelegram) : State := if s.deskServes then s.forward t else s

/-- DESK_POLL (08 R166). -/
def execDeskPoll (t : DeskTelegram) : State → Host.Outcome State Fault Refusal := afterReads fun s => s.takeDesk { t with order := false }

/-- DESK_ORDER_BOUND (02 R45, R46). -/
def execDeskOrderBound (t : DeskTelegram) : State → Host.Outcome State Fault Refusal := afterReads fun s => s.takeDesk { t with order := true }

/-- DESK_ORDER_UNBOUND (08 R168). -/
def execDeskOrderUnbound (t : DeskTelegram) : State → Host.Outcome State Fault Refusal := afterReads fun s => s.takeDesk { t with order := true }

/-- DESK_GROUP_TELEGRAM (08 R169). -/
def execDeskGroupTelegram (t : DeskTelegram) : State → Host.Outcome State Fault Refusal := afterReads fun s => s.takeDesk t

end Sys2Proof.Machine
end

