-- ==== Sys2Proof/Machine/Dispatch.lean ====
section
/-! DEFINITION. One arm for each command: one direct call of its meaning. -/

namespace Sys2Proof.Machine

def exec (i : Instr) (s : State) : Host.Outcome State Fault Refusal :=
  match i with
  | .powerOnReset r => Sys2Proof.Machine.execPowerOnReset r s
  | .autoRun => Sys2Proof.Machine.execAutoRun s
  | .lineError l r => Sys2Proof.Machine.execLineError l r s
  | .deskTelegramReceived r => Sys2Proof.Machine.execDeskTelegramReceived r s
  | .deskBufferServe fs => Sys2Proof.Machine.execDeskBufferServe fs s
  | .deskTransmitDone => Sys2Proof.Machine.execDeskTransmitDone s
  | .askMalformed h body => Sys2Proof.Machine.execAskMalformed h body s
  | .askRepeat h body => Sys2Proof.Machine.execAskRepeat h body s
  | .readEntry h table index part fs => Sys2Proof.Machine.execReadEntry h table index part fs s
  | .writeEntryPart h table index part empty words => Sys2Proof.Machine.execWriteEntryPart h table index part empty words s
  | .writeHolderRecord h n r => Sys2Proof.Machine.execWriteHolderRecord h n r s
  | .writeValveRecord h n r => Sys2Proof.Machine.execWriteValveRecord h n r s
  | .writeDistrictRecord h n r => Sys2Proof.Machine.execWriteDistrictRecord h n r s
  | .writeBoosterRecord h n r => Sys2Proof.Machine.execWriteBoosterRecord h n r s
  | .writeMeterEntry h n weight limit => Sys2Proof.Machine.execWriteMeterEntry h n weight limit s
  | .writeYardRecord h r => Sys2Proof.Machine.execWriteYardRecord h r s
  | .writeLineTable h n r => Sys2Proof.Machine.execWriteLineTable h n r s
  | .writePollPosition h n r => Sys2Proof.Machine.execWritePollPosition h n r s
  | .writeDirectoryEntry h n r => Sys2Proof.Machine.execWriteDirectoryEntry h n r s
  | .writeDrawRecord h r => Sys2Proof.Machine.execWriteDrawRecord h r s
  | .removeRecord h table index => Sys2Proof.Machine.execRemoveRecord h table index s
  | .run h => Sys2Proof.Machine.execRun h s
  | .hold h => Sys2Proof.Machine.execHold h s
  | .standby h => Sys2Proof.Machine.execStandby h s
  | .restart h => Sys2Proof.Machine.execRestart h s
  | .setClock h day second => Sys2Proof.Machine.execSetClock h day second s
  | .setFlags h codes => Sys2Proof.Machine.execSetFlags h codes s
  | .readNotices h count => Sys2Proof.Machine.execReadNotices h count s
  | .readCounts h group clear => Sys2Proof.Machine.execReadCounts h group clear s
  | .watch h station setting => Sys2Proof.Machine.execWatch h station setting s
  | .search h start line kind group => Sys2Proof.Machine.execSearch h start line kind group s
  | .delete h station => Sys2Proof.Machine.execDelete h station s
  | .clear h => Sys2Proof.Machine.execClear h s
  | .tableCheck h => Sys2Proof.Machine.execTableCheck h s
  | .tableCheckDone fs => Sys2Proof.Machine.execTableCheckDone fs s
  | .storeTables h skip fs => Sys2Proof.Machine.execStoreTables h skip fs s
  | .storeBlockWritten good => Sys2Proof.Machine.execStoreBlockWritten good s
  | .readHolder h n => Sys2Proof.Machine.execReadHolder h n s
  | .bar h n sel => Sys2Proof.Machine.execBar h n sel s
  | .unbar h n sel => Sys2Proof.Machine.execUnbar h n sel s
  | .clearFault h n => Sys2Proof.Machine.execClearFault h n s
  | .readValve h n => Sys2Proof.Machine.execReadValve h n s
  | .loadRota h turns => Sys2Proof.Machine.execLoadRota h turns s
  | .startRota h => Sys2Proof.Machine.execStartRota h s
  | .stopRota h => Sys2Proof.Machine.execStopRota h s
  | .setDrawMode h mode => Sys2Proof.Machine.execSetDrawMode h mode s
  | .setDistrictMode h n mode => Sys2Proof.Machine.execSetDistrictMode h n mode s
  | .readDistrict h n => Sys2Proof.Machine.execReadDistrict h n s
  | .setPoolMode h mode => Sys2Proof.Machine.execSetPoolMode h mode s
  | .freeBooster h n => Sys2Proof.Machine.execFreeBooster h n s
  | .readBoosters h => Sys2Proof.Machine.execReadBoosters h s
  | .readAccount h pick part => Sys2Proof.Machine.execReadAccount h pick part s
  | .releaseAccount h number => Sys2Proof.Machine.execReleaseAccount h number s
  | .deskPoll t => Sys2Proof.Machine.execDeskPoll t s
  | .deskOrderBound t => Sys2Proof.Machine.execDeskOrderBound t s
  | .deskOrderUnbound t => Sys2Proof.Machine.execDeskOrderUnbound t s
  | .deskGroupTelegram t => Sys2Proof.Machine.execDeskGroupTelegram t s
  | .parkTimerExpiry holder => Sys2Proof.Machine.execParkTimerExpiry holder s
  | .fieldSendStart l => Sys2Proof.Machine.execFieldSendStart l s
  | .fieldSendEnd l => Sys2Proof.Machine.execFieldSendEnd l s
  | .attemptDeadlineExpiry l => Sys2Proof.Machine.execAttemptDeadlineExpiry l s
  | .fieldReplyTaken l r => Sys2Proof.Machine.execFieldReplyTaken l r s
  | .fieldAlertReceived l r => Sys2Proof.Machine.execFieldAlertReceived l r s
  | .fieldStray l r => Sys2Proof.Machine.execFieldStray l r s
  | .chatterWindowExpiry l => Sys2Proof.Machine.execChatterWindowExpiry l s
  | .cycleExpiry => Sys2Proof.Machine.execCycleExpiry s
  | .blindGraceExpiry holder => Sys2Proof.Machine.execBlindGraceExpiry holder s
  | .rateWindowExpiry => Sys2Proof.Machine.execRateWindowExpiry s
  | .travelAllowanceExpiry valve => Sys2Proof.Machine.execTravelAllowanceExpiry valve s
  | .boosterDeadlineExpiry booster => Sys2Proof.Machine.execBoosterDeadlineExpiry booster s
  | .turnTimerExpiry => Sys2Proof.Machine.execTurnTimerExpiry s
  | .deferralDeadlineExpiry => Sys2Proof.Machine.execDeferralDeadlineExpiry s
  | .settleExpiry district => Sys2Proof.Machine.execSettleExpiry district s
  | .minuteBoundary => Sys2Proof.Machine.execMinuteBoundary s
  | .releaseHoldExpiry booster => Sys2Proof.Machine.execReleaseHoldExpiry booster s
  | .undecidedDeadlineExpiry booster => Sys2Proof.Machine.execUndecidedDeadlineExpiry booster s
  | .recoveryExpiry => Sys2Proof.Machine.execRecoveryExpiry s
  | .accountCloseDue => Sys2Proof.Machine.execAccountCloseDue s
  | .agingExpiry => Sys2Proof.Machine.execAgingExpiry s
  | .telegramBegins l => Sys2Proof.Machine.execTelegramBegins l s
  | .replyNotOfRightForm l r => Sys2Proof.Machine.execReplyNotOfRightForm l r s
  | .yardClockSecond => Sys2Proof.Machine.execYardClockSecond s

end Sys2Proof.Machine
end

