-- ==== Sys2Proof/Safety.lean ====
section
/-! DEFINITION. What a state must hold to be one the part can be in: the bounds and ties that the manual gives. -/

namespace Sys2Proof.Machine

/-- The yard clock shows a second of a day (10 R202). -/
abbrev ClockSound (s : State) : Prop := s.clock.second < Config.daySeconds ∧ s.clock.day < Config.dayModulus

/-- The desk queues stay within their capacities (07 R144, R150, 10 R204). -/
abbrev DeskSound (d : Desk) : Prop :=
  d.rx.length ≤ Config.deskRxCap ∧ d.tx.length ≤ Config.deskTxCap ∧ d.notices.length ≤ Config.noticeCap ∧ d.noticeTag < 256

/-- Flag 6 follows the reserve level and flag 7 the make-unplaced flag (10 R203). -/
abbrev FlagsSound (s : State) : Prop :=
  s.flags.getLsbD 6 = decide (1 ≤ s.pool.level) ∧ s.flags.getLsbD 7 = s.fill.unplaced

/-- The account ring holds at most 128 records (06 R132), at most 4 desk orders to unbound stations are open (02 R48), and the
tracking counter is at most 255 (11 R208). -/
abbrev CountsSound (s : State) : Prop :=
  s.acct.ring.length ≤ Config.ringCap ∧ s.relay.allowance ≤ Config.allowanceCap ∧ s.mem.tracking ≤ Config.trackingMax

/-- Every table is in its canonical form: each number once, in rising order. -/
abbrev TablesSound (s : State) : Prop :=
  tblWf s.holders = true ∧ tblWf s.valves = true ∧ tblWf s.districts = true ∧ tblWf s.boosters = true
    ∧ tblWf s.meters = true ∧ tblWf s.dir = true ∧ tblWf s.polls = true

/-- The tables of a block of the store image are in their canonical form. -/
def contentSound : BlockContent → Bool
  | .holders t => tblWf t
  | .valves t => tblWf t
  | .districts t => tblWf t
  | .boosters t _ => tblWf t
  | .meters t => tblWf t
  | .polls t _ => tblWf t
  | .directory st gr => tblWf st && tblWf gr
  | _ => true

def blockSound (b : Block) : Bool :=
  match b.content with
  | some c => contentSound c
  | none => true

/-- The blocks of the store, and those of a store write under way, hold canonical tables. -/
abbrev StoreSound (m : TableMem) : Prop :=
  m.store.all blockSound = true ∧ (match m.writing with
    | some w => w.blocks.all blockSound
    | none => true) = true

/-- No hand-off waits and no read of the step meets a bit error: so a command's own effect is all that its step shows (log
entries 3 and 10). -/
abbrev Settled (s : State) : Prop := s.handoffs = [] ∧ s.mem.met = []

/-- An ASK is taken and acted on: its answer finds room, and it is no repeat of the one last answered (07 R144, 10 R194). -/
abbrev Takes (s : State) (h : AskHead) (code : Nat) : Prop :=
  Settled s ∧ s.desk.tx.length < Config.deskTxCap ∧ s.heldAnswer h code = none

/-! ### Words of the statements about commands -/

/-- The reads of the next step meet these errors (log entry 10). -/
def State.meeting (s : State) (met : List Met) : State := { s with mem := { s.mem with met := met } }

/-- The ANSWER is in the desk transmit queue, with the flags word of this moment, and is the last answer (07 R150, 10 R194). -/
def State.answered (s : State) (h : AskHead) (code : Nat) (res : Result) (why : Option Reason) (data : AnswerData) : State :=
  { s with desk := { s.desk with
      tx := s.desk.tx ++ [.answer h.tag res code (flagsWord (!s.desk.notices.isEmpty) s.desk.overrun) why data]
      overrun := false
      lastAnswer := some ⟨h.tag, code, res, why, data⟩ } }

/-- An answer of the part's own to a relayed telegram is in the desk transmit queue; the last answer stands (10 R194). -/
def State.answeredRelayed (s : State) (t : DeskTelegram) (code : Nat) (res : Result) (why : Option Reason) : State :=
  { s with desk := { s.desk with
      tx := s.desk.tx ++ [.answer t.tag res code (flagsWord (!s.desk.notices.isEmpty) s.desk.overrun) why (.words [t.dest])]
      overrun := false } }

/-- Every order parked for the valve is answered SUPERSEDED, and its park slot is empty (01 R22); where there is more than one, in the
order of the holders (the model's choice, log entry 121). -/
def State.parkedSuperseded (s : State) (v : Nat) : State :=
  let mine := fun (x : Holder) => x.rt.park.filter fun q => q.valve == v
  (s.holders.filterMap fun p => (mine p.2).map (·.tag)).foldl (fun t g => t.answerRelayed g.num 34 .superseded none g.dest)
    { s with holders := s.holders.map fun p => (p.1, if mine p.2 = none then p.2 else { p.2 with rt := { p.2.rt with park := none } }) }

/-- Once nothing more waits to be acted on, the request of this tag and code is the one last answered, so. -/
def Answers (t : State) (h : AskHead) (code : Nat) (res : Result) (why : Option Reason) (data : AnswerData) : Prop :=
  t.handoffs = [] → t.desk.lastAnswer = some ⟨h.tag, code, res, why, data⟩

/-- A desk telegram is taken: its answer finds room (07 R144). -/
abbrev Serves (s : State) : Prop := Settled s ∧ s.desk.tx.length < Config.deskTxCap

/-- The staged write is absent (10 R196). -/
def State.unstaged (s : State) : State := { s with desk := { s.desk with staged := none } }

def State.withRx (s : State) (ts : List Telegram) : State := { s with desk := { s.desk with rx := ts } }

/-- The table records stand: every field that a desk writes, and every damage mark. -/
def SameRecords (s t : State) : Prop :=
  (∀ n, (t.holder n).map (fun x => (x.tab, x.damaged)) = (s.holder n).map fun x => (x.tab, x.damaged))
    ∧ (∀ n, (t.valve n).map (fun x => (x.tab, x.damaged)) = (s.valve n).map fun x => (x.tab, x.damaged))
    ∧ (∀ n, (t.district n).map (fun x => (x.tab, x.damaged)) = (s.district n).map fun x => (x.tab, x.damaged))
    ∧ (∀ n, (t.booster n).map (fun x => (x.tab, x.damaged)) = (s.booster n).map fun x => (x.tab, x.damaged))
    ∧ (∀ n, ((t.meter n).weight, (t.meter n).limit, (t.meter n).damaged) = ((s.meter n).weight, (s.meter n).limit, (s.meter n).damaged))
    ∧ (t.yard, t.yardPresent, t.yardDamaged) = (s.yard, s.yardPresent, s.yardDamaged)
    ∧ (∀ l, ((t.line l).set, (t.line l).damaged) = ((s.line l).set, (s.line l).damaged))
    ∧ t.polls = s.polls ∧ t.pollHoles = s.pollHoles
    ∧ (t.draw.tab, t.draw.recDamaged, t.draw.mode, t.draw.modeDamaged) = (s.draw.tab, s.draw.recDamaged, s.draw.mode, s.draw.modeDamaged)
    ∧ (t.pool.mode, t.pool.modeDamaged) = (s.pool.mode, s.pool.modeDamaged)
    ∧ (t.fill.work, t.fill.pend, t.fill.pendFlag) = (s.fill.work, s.fill.pend, s.fill.pendFlag)

/-- The run state, the clock, yard flags 0-5, the timers of the yard, the account ring, the table memory and the desk's own
registers stand. -/
def SameMoment (s t : State) : Prop :=
  t.pending = s.pending ∧ t.elapsed = s.elapsed ∧ t.clock = s.clock ∧ t.minuteDue = s.minuteDue ∧ t.runState = s.runState
    ∧ t.flags &&& 0x3F#8 = s.flags &&& 0x3F#8 ∧ t.rateDue = s.rateDue ∧ t.cycle = s.cycle ∧ t.acct.ring = s.acct.ring
    ∧ t.acct.openAcct.number = s.acct.openAcct.number ∧ t.mem = s.mem ∧ t.desk.rx = s.desk.rx ∧ t.desk.staged = s.desk.staged

/-- What the stations have told stands: the directory, the meters, and the holders' figures, states and bars. -/
def SameSamples (s t : State) : Prop :=
  t.dir = s.dir ∧ t.meters = s.meters
    ∧ ∀ n, (t.holder n).map (fun x => (x.rt.height, x.rt.stock, x.rt.pressure, x.rt.state, x.rt.latch, x.rt.fillBar, x.rt.drawBar))
      = (s.holder n).map fun x => (x.rt.height, x.rt.stock, x.rt.pressure, x.rt.state, x.rt.latch, x.rt.fillBar, x.rt.drawBar)

/-- The row of a request taken from the receive buffer; none for the final part of an entry, which is the row of its record. -/
def askRow (h : AskHead) (fs : Findings) : Request → Option Instr
  | .readEntry t i p => some (.readEntry h t i p fs)
  | .writeEntry t i p final empty ws =>
    if final then (if empty && p == 0 then some (.removeRecord h t i) else none) else some (.writeEntryPart h t i p empty ws)
  | .run => some (.run h)
  | .hold => some (.hold h)
  | .standby => some (.standby h)
  | .restart => some (.restart h)
  | .setClock d sec => some (.setClock h d sec)
  | .setFlags c => some (.setFlags h c)
  | .readNotices n => some (.readNotices h n)
  | .readCounts g c => some (.readCounts h g c)
  | .watch st m => some (.watch h st m)
  | .search a b c d => some (.search h a b c d)
  | .delete st => some (.delete h st)
  | .clear => some (.clear h)
  | .tableCheck => some (.tableCheck h)
  | .storeTables k => some (.storeTables h k fs)
  | .readHolder n => some (.readHolder h n)
  | .bar n sel => some (.bar h n sel)
  | .unbar n sel => some (.unbar h n sel)
  | .clearFault n => some (.clearFault h n)
  | .readValve n => some (.readValve h n)
  | .loadRota ts => some (.loadRota h ts)
  | .startRota => some (.startRota h)
  | .stopRota => some (.stopRota h)
  | .setDrawMode m => some (.setDrawMode h m)
  | .setDistrictMode n m => some (.setDistrictMode h n m)
  | .readDistrict n => some (.readDistrict h n)
  | .setPoolMode m => some (.setPoolMode h m)
  | .freeBooster n => some (.freeBooster h n)
  | .readBoosters => some (.readBoosters h)
  | .readAccount k p => some (.readAccount h k p)
  | .releaseAccount n => some (.releaseAccount h n)

/-- The rows that stand for the serving of the desk receive buffer. -/
def isDeskRow : Instr → Bool
  | .deskBufferServe _ | .askMalformed _ _ | .askRepeat _ _ | .readEntry _ _ _ _ _ | .writeEntryPart _ _ _ _ _ _
  | .writeHolderRecord _ _ _ | .writeValveRecord _ _ _ | .writeDistrictRecord _ _ _ | .writeBoosterRecord _ _ _
  | .writeMeterEntry _ _ _ _ | .writeYardRecord _ _ | .writeLineTable _ _ _ | .writePollPosition _ _ _
  | .writeDirectoryEntry _ _ _ | .writeDrawRecord _ _ | .removeRecord _ _ _ | .run _ | .hold _ | .standby _ | .restart _
  | .setClock _ _ _ | .setFlags _ _ | .readNotices _ _ | .readCounts _ _ _ | .watch _ _ _ | .search _ _ _ _ _ | .delete _ _
  | .clear _ | .tableCheck _ | .storeTables _ _ _ | .readHolder _ _ | .bar _ _ _ | .unbar _ _ _ | .clearFault _ _
  | .readValve _ _ | .loadRota _ _ | .startRota _ | .stopRota _ | .setDrawMode _ _ | .setDistrictMode _ _ _
  | .readDistrict _ _ | .setPoolMode _ _ | .freeBooster _ _ | .readBoosters _ | .readAccount _ _ _ | .releaseAccount _ _
  | .deskPoll _ | .deskOrderBound _ | .deskOrderUnbound _ | .deskGroupTelegram _ => true
  | _ => false

/-- A slot that holds no order (02 R29). -/
def SlotsFree (t : State) : Prop :=
  (∀ n x, t.valve n = some x → x.slot = Slot.free) ∧ (∀ n x, t.district n = some x → x.slot = Slot.free)
    ∧ ∀ n x, t.booster n = some x → x.slot = Slot.free

end Sys2Proof.Machine
end

