-- ==== Sys2Proof/WellFormed.lean ====
section
/-! DEFINITION. Well-formed commands: every operand is a value that its command can carry on its line or come with, and a
reception is of the class that its row names. -/

namespace Sys2Proof

def wordOk (n : Nat) : Bool := n < 65536
def longOk (n : Nat) : Bool := n < 4294967296
def numberOk (a b n : Nat) : Bool := a ≤ n && n ≤ b

/-- A tag is one byte (07 Table 7.1). -/
def AskHead.wf (h : AskHead) : Bool := h.tag < 256

/-- A body holds at most 32 words (07 Table 7.1). -/
def bodyOk (ws : List Word) : Bool := ws.length ≤ 32

def Lift.wf (l : Lift) : Bool := wordOk l.stroke && wordOk l.capacity && wordOk l.step

/-- Every field fits its word (10 R196). -/
def HolderRec.wf (r : HolderRec) : Bool :=
  r.lift1.wf && r.lift2.wf && r.lift3.wf && r.lift4.wf
    && [r.fastRise, r.lifts, r.margin, r.reserve, r.highWarning, r.topLimit, r.topHyst, r.cupBand, r.blindGrace, r.gauge,
      r.inlet, r.outlet].all wordOk

def ValveRec.wf (r : ValveRec) : Bool := [r.number, r.station, r.travel].all wordOk

/-- At most six segments are carried (04 R81). -/
def profileOk (p : List Segment) : Bool := p.length ≤ 6 && p.all fun g => wordOk g.start && wordOk g.setpoint

def DistrictRec.wf (r : DistrictRec) : Bool :=
  [r.governor, r.recorder, r.meter, r.floor, r.deadBand, r.settle, r.rank].all wordOk
    && decide (-32768 ≤ r.headGain ∧ r.headGain ≤ 32767) && profileOk r.profA && profileOk r.profB
    && (match r.profFlag with
      | none => true
      | some f => f < 65535)

def BoosterRec.wf (r : BoosterRec) : Bool := [r.station, r.lift, r.allowance].all wordOk

/-- A value that has a word of its own for absent is never that word. -/
def presentOk : Option Nat → Bool
  | none => true
  | some n => 0 < n && wordOk n

def YardRec.wf (r : YardRec) : Bool :=
  [r.park, r.turnPeriod, r.margin, r.recovery, r.cut1, r.cut2, r.cut3, r.releaseHold, r.interval, r.cyclePeriod,
      r.lostThreshold].all wordOk
    && [r.mark1, r.mark2, r.mark3, r.hyst, r.tolerance].all longOk && presentOk r.makeMeter && presentOk r.aging

def LineSet.wf (r : LineSet) : Bool := [r.rate, r.w1, r.w2, r.budget].all wordOk

def PollRec.wf (r : PollRec) : Bool := [r.station, r.retries, r.cls, r.nth].all wordOk

def DirWrite.wf (r : DirWrite) : Bool := wordOk r.station

/-- At most four holders are listed (03 R72). -/
def DrawRec.wf (r : DrawRec) : Bool := r.list.length ≤ 4 && r.list.all wordOk && wordOk r.count

/-- A guarded record is named by a number of its table (11 R208). -/
def RecordRef.wf : RecordRef → Bool
  | .holder n => numberOk 1 4 n
  | .valve n | .district n => numberOk 1 8 n
  | .booster n => numberOk 1 3 n
  | .meter n => numberOk 0 8 n
  | .poll n => numberOk 1 48 n
  | .directory n => numberOk 1 199 n
  | .turnWork i | .turnPend i => numberOk 0 23 i
  | _ => true

/-- One finding for a record. -/
def findingsOk (fs : Findings) : Bool := fs.all (·.1.wf) && decide (fs.map (·.1)).Nodup

/-- The blocks that fail are blocks of the image (11 Table 11.2). -/
def StoreRead.wf (r : StoreRead) : Bool := r.failed.all fun c => [1, 2, 3, 4, 5, 6, 7, 9, 11, 12, 13, 14].contains c

/-- A good telegram on a field line, or on the desk line (07 R142). -/
def goodOn (desk : Bool) (r : Reception) : Bool := (Machine.receive desk r).isSome

def onDesk : LineId → Bool
  | .d => true
  | .field _ => false

/-- A desk telegram of kind ORDER or POLL with its destination in a range (07 R144). -/
def DeskTelegram.wf (t : DeskTelegram) (order : Bool) : Bool :=
  t.order == order && numberOk 1 199 t.dest && t.tag < 256 && bodyOk t.body

/-- A telegram that a line can carry: station numbers, a tag byte, at most 32 words, and an envelope on the desk line only, of
the kind's class (07 R138-R142). -/
def Telegram.wf (t : Telegram) (desk : Bool) : Bool :=
  Machine.stationOk t.dest && Machine.stationOk t.src && t.tag < 256 && bodyOk t.body && t.env.isSome == desk
    && (match t.env with
      | none => true
      | some e => Machine.deskEnvOk t.kind e)

/-- A request whose arguments fit their words (10 R192). -/
def Request.wf : Request → Bool
  | .readEntry t i p => [t, i, p].all wordOk
  | .writeEntry t i p _ _ ws => [t, i].all wordOk && p < 256 && ws.length ≤ 28
  | .setClock d sec => wordOk d && longOk sec
  | .readNotices n | .delete n | .readHolder n | .clearFault n | .readValve n | .setDrawMode n | .readDistrict n | .setPoolMode n
  | .freeBooster n => wordOk n
  | .readCounts a b | .watch a b | .bar a b | .unbar a b | .setDistrictMode a b | .readAccount a b => wordOk a && wordOk b
  | .search a b c d => [a, b, c, d].all wordOk
  | .loadRota ts => ts.length == 24 && ts.all wordOk
  | .releaseAccount n => longOk n
  | _ => true

def Instr.wf : Instr → Bool
  | .powerOnReset r => r.wf
  | .lineError l r => !goodOn (onDesk l) r
  | .deskTelegramReceived r => goodOn true r
  | .deskBufferServe fs | .tableCheckDone fs => findingsOk fs
  | .askMalformed h body => h.wf && bodyOk body && (match Machine.decodeAsk body with
    | .ok _ => false
    | .error _ => true)
  | .askRepeat h body => h.wf && h.rep && bodyOk body
  | .readEntry h t i p fs => h.wf && [t, i, p].all wordOk && findingsOk fs
  | .writeEntryPart h t i p _ ws => h.wf && [t, i].all wordOk && p < 256 && ws.length ≤ 28
  | .writeHolderRecord h n r => h.wf && wordOk n && r.wf
  | .writeValveRecord h n r => h.wf && wordOk n && r.wf
  | .writeDistrictRecord h n r => h.wf && wordOk n && r.wf
  | .writeBoosterRecord h n r => h.wf && wordOk n && r.wf
  | .writeMeterEntry h n w l => h.wf && [n, w, l].all wordOk
  | .writeYardRecord h r => h.wf && r.wf
  | .writeLineTable h n r => h.wf && wordOk n && r.wf
  | .writePollPosition h n r => h.wf && wordOk n && (match r with
    | none => true
    | some p => p.wf)
  | .writeDirectoryEntry h n r => h.wf && wordOk n && r.wf
  | .writeDrawRecord h r => h.wf && r.wf
  | .run h | .hold h | .standby h | .restart h | .clear h | .tableCheck h | .startRota h | .stopRota h | .readBoosters h
  | .setFlags h _ => h.wf
  | .setClock h d sec => h.wf && wordOk d && longOk sec
  | .readNotices h n | .delete h n | .readHolder h n | .clearFault h n | .readValve h n | .setDrawMode h n | .readDistrict h n
  | .setPoolMode h n | .freeBooster h n => h.wf && wordOk n
  | .removeRecord h a b | .readCounts h a b | .watch h a b | .bar h a b | .unbar h a b | .setDistrictMode h a b
  | .readAccount h a b => h.wf && wordOk a && wordOk b
  | .search h a b c d => h.wf && [a, b, c, d].all wordOk
  | .storeTables h _ fs => h.wf && findingsOk fs
  | .loadRota h ts => h.wf && ts.length == 24 && ts.all wordOk
  | .releaseAccount h n => h.wf && longOk n
  | .deskPoll t => t.wf false
  | .deskOrderBound t | .deskOrderUnbound t => t.wf true
  | .deskGroupTelegram t => (numberOk 200 211 t.dest || t.dest == 255) && t.tag < 256 && bodyOk t.body
  | .parkTimerExpiry n | .blindGraceExpiry n => numberOk 1 4 n
  | .travelAllowanceExpiry n | .settleExpiry n => numberOk 1 8 n
  | .boosterDeadlineExpiry n | .releaseHoldExpiry n | .undecidedDeadlineExpiry n => numberOk 1 3 n
  | .fieldReplyTaken _ r | .fieldAlertReceived _ r | .fieldStray _ r | .replyNotOfRightForm _ r => goodOn false r
  | .autoRun | .deskTransmitDone | .storeBlockWritten _ | .fieldSendStart _ | .fieldSendEnd _ | .attemptDeadlineExpiry _
  | .chatterWindowExpiry _ | .cycleExpiry | .rateWindowExpiry | .turnTimerExpiry | .deferralDeadlineExpiry | .minuteBoundary
  | .recoveryExpiry | .accountCloseDue | .agingExpiry | .telegramBegins _ | .yardClockSecond => true

end Sys2Proof
end

