-- ==== Sys2Proof/Certificates/Slice0/Obligations.lean ====
section
/-! DEFINITION. The statements about the HL-48 for the provers. A statement about a command is an equation with the state that
the rules give, or, where what the command hands on goes further, what stands in the state it leaves. -/

section Statements

open Sys2Proof Sys2Proof.Machine

/-! ### Steps, reset, invariants -/

/-- A step runs the command at the front of the queue; on an empty queue the block idles, but for bit errors that reads meet
(the model's choices, log entries 4 and 10). -/
def Obligations.StepTakesTheFrontCommand : Prop :=
  (∀ (c : Instr) (rest : List Instr) (s : State), s.pending = c :: rest → step s = exec c { s with pending := rest })
    ∧ (∀ s : State, s.pending = [] → Settled s → step s = .next s)
    ∧ ∀ (s : State) (e : Met), s.pending = [] → s.mem.met = [e] →
      step s = .next (settle Config.handoffBound (({ s with mem := { s.mem with met := [] } } : State).errorFound e))

/-- Every command ends in a next state, whatever the state, and leaves the queue as it found it. Every command but POWER_ON_RESET
acts on the state in which the bit errors that its step's reads meet have been found, each acted on in turn with what it hands on;
where none is met that is the state itself (the errors as an input and the order inside a step: the model's choices, log entry
10). -/
def Obligations.EveryCommandEnds : Prop :=
  (∀ (c : Instr) (s : State), ∃ t, exec c s = .next t ∧ t.pending = s.pending)
    ∧ ∀ s : State, (s.mem.met = [] → s.errorsRead = s)
      ∧ (s.mem.met ≠ [] → s.errorsRead = settle Config.handoffBound (s.mem.met.foldl State.errorFound (s.meeting [])))
      ∧ s.errorsRead.mem.met = []
      ∧ ∀ c : Instr, (∀ r, c ≠ .powerOnReset r) → exec c s = exec c s.errorsRead

/-- The values that the chapters give for power-on; and the invariants below hold then. The store, the errors met, the hand-off queue,
the queue of commands and the telegram being sent to the desk are the model's own (log entries 8, 10, 28, 53 and 67). -/
def Obligations.ResetValues : Prop :=
  let s := State.reset
  (s.runState = .standby ∧ s.clock = ⟨0, 0, false⟩ ∧ s.elapsed = 0 ∧ s.flags = 0#8 ∧ s.yard = YardRec.default ∧ s.yardPresent = false)
    ∧ (s.holders = [] ∧ s.valves = [] ∧ s.districts = [] ∧ s.boosters = [] ∧ s.dir = [] ∧ s.polls = [] ∧ ∀ n, s.meter n = Meter.initial)
    ∧ (s.fill.running = false ∧ s.fill.turnDue = none ∧ s.fill.filling = none ∧ s.fill.chg = none ∧ s.fill.unplaced = false
      ∧ s.fill.work.map turnHolder = List.replicate 24 0 ∧ s.fill.pendFlag = false)
    ∧ (s.drawMode = .manual ∧ s.draw.set = [] ∧ s.draw.chg = none ∧ s.draw.main = 0 ∧ s.poolMode = .manual ∧ s.pool.queue = []
      ∧ s.pool.level = 0 ∧ s.pool.judged = false ∧ s.pool.recoveryDue = none)
    ∧ (s.acct.ring = [] ∧ s.acct.openAcct.number = 0 ∧ s.acct.openAcct.clockUnset = true ∧ s.acct.openAcct.merged = 0)
    ∧ (∀ l, (s.line l).mode = .idle ∧ (s.line l).exch = none ∧ (s.line l).q0 = [] ∧ (s.line l).q1 = [] ∧ (s.line l).q2 = []
      ∧ (s.line l).tag = 0 ∧ (s.line l).quarantined = false ∧ (s.line l).fails = 0 ∧ (s.line l).alerts = 0
      ∧ (s.line l).set = ⟨9600, 2, 1, 16⟩ ∧ (s.line l).counters = ⟨0, 0, 0, 0, 0, 0, 0, 0⟩)
    ∧ (s.relay.floods = [] ∧ s.relay.allowance = 0 ∧ s.relay.creation = 0 ∧ s.relay.dirFull = 0 ∧ s.cycle = ⟨0, 10, 10, 0⟩)
    ∧ (s.desk.rx = [] ∧ s.desk.tx = [] ∧ s.desk.overrun = false ∧ s.desk.notices = [] ∧ s.desk.lostNotices = 0
      ∧ s.desk.noticeTag = 0 ∧ s.desk.lastAnswer = none ∧ s.desk.staged = none ∧ s.desk.out = none)
    ∧ (s.mem.tracking = 0 ∧ s.mem.sweep = false ∧ s.mem.met = [] ∧ s.mem.writing = none ∧ s.mem.autoRun = false)
    ∧ ClockSound s ∧ DeskSound s.desk ∧ FlagsSound s ∧ TablesSound s ∧ StoreSound s.mem ∧ CountsSound s ∧ Settled s ∧ s.pending = []

/-- The yard clock shows a second of a day after every step (10 R202). -/
def Obligations.StepKeepsTheClockInRange : Prop :=
  ∀ s t : State, ClockSound s → step s = .next t → ClockSound t

/-- The desk's buffer, transmit queue and notice queue stay within 8, 24 and 32 entries (07 R144, R150, 10 R204). -/
def Obligations.StepKeepsTheDeskQueuesBounded : Prop :=
  ∀ s t : State, DeskSound s.desk → step s = .next t → DeskSound t.desk

/-- Yard flag 6 follows the reserve level and yard flag 7 the make-unplaced flag (10 R203). -/
def Obligations.StepKeepsTheYardFlagsTied : Prop :=
  ∀ s t : State, FlagsSound s → step s = .next t → FlagsSound t

/-- Each table, and each table of every block of the store image, holds each number once, in rising order. -/
def Obligations.StepKeepsTheTablesCanonical : Prop :=
  ∀ s t : State, TablesSound s → StoreSound s.mem → step s = .next t → TablesSound t ∧ StoreSound t.mem

/-- The ring holds at most 128 records, at most 4 orders to unbound stations are open, and the tracking counter stays within 255. -/
def Obligations.StepKeepsTheCountsBounded : Prop :=
  ∀ s t : State, CountsSound s → step s = .next t → CountsSound t

/-! ### Telegrams, requests and entries as words -/

/-- A telegram as it is sent passes the receive checks of its line and is read as itself. -/
def Obligations.TelegramReadsBack : Prop :=
  ∀ (desk : Bool) (t : Telegram), t.wf desk = true → parseTelegram desk (telegramBytes t) = some t

/-- A request in its words is decoded as itself, with every argument; its packing is the model's choice (log entry 11). -/
def Obligations.AskReadsBack : Prop :=
  ∀ q : Request, q.wf = true → decodeAsk (encodeAsk q) = .ok q

/-- A table entry in its words is read as the record itself, with every field; its packing is the model's choice (log entry 12). -/
def Obligations.EntryReadsBack : Prop :=
  (∀ r : HolderRec, r.wf = true → decodeHolder (encodeHolder r) = .ok r)
    ∧ (∀ r : ValveRec, r.wf = true → decodeValve (encodeValve r) = .ok r)
    ∧ (∀ r : DistrictRec, r.wf = true → decodeDistrict (encodeDistrict r) = .ok r)
    ∧ (∀ r : BoosterRec, r.wf = true → decodeBooster (encodeBooster r) = .ok r)
    ∧ (∀ r : YardRec, r.wf = true → decodeYard (encodeYard r) = .ok r)
    ∧ (∀ r : LineSet, r.wf = true → decodeLine (encodeLine r) = .ok r)
    ∧ (∀ r : PollRec, r.wf = true → decodePoll (encodePoll r) = .ok r)
    ∧ (∀ r : DirWrite, r.wf = true → decodeDir (encodeDir r) = .ok r)
    ∧ ∀ r : DrawRec, r.wf = true → decodeDraw (encodeDraw r) = .ok r

/-- The check word: preset FFFFh, each byte shifted in most significant bit first under the generator 1021h, sent high byte
first without inversion at the end of every telegram; over a whole telegram the register ends at 0000h. -/
def Obligations.CheckWordIsTheCrc : Prop :=
  crc16 [] = 0xFFFF#16
    ∧ (∀ (bs : List Byte) (b : Byte), crc16 (bs ++ [b]) = Nat.repeat crcBit 8 (crc16 bs ^^^ ((b.zeroExtend 16) <<< 8)))
    ∧ (∀ r : Word, crcBit r = if r.getLsbD 15 then (r <<< 1) ^^^ 0x1021#16 else r <<< 1)
    ∧ (∀ bs : List Byte, crc16 (bs ++ [hiByte (crc16 bs), loByte (crc16 bs)]) = 0#16)
    ∧ (∀ t : Telegram, telegramBytes t = headBytes t ++ [hiByte (crc16 (headBytes t)), loByte (crc16 (headBytes t))])
    ∧ crc16 [0x31#8, 0x32#8, 0x33#8, 0x34#8, 0x35#8, 0x36#8, 0x37#8, 0x38#8, 0x39#8] = 0x29B1#16

/-! ### The desk queues -/

/-- An ANSWER enters below 24 telegrams and every other telegram below 20; one that finds no room adds to the desk drops. An ANSWER of
the part's own initiative enters below 23 only while the desk telegram being served still waits for its immediate ANSWER (`true` for
the model's `owed`), which so finds room: which of the two is dropped is the model's choice (log entry 110). -/
def Obligations.DeskQueueTakesOrDrops : Prop :=
  (∀ (s : State) (h : AskHead) (c : Nat) (r : Result) (w : Option Reason) (d : AnswerData),
      (s.desk.tx.length < 24 → s.giveAnswer h.tag c r w d = s.answered h c r w d)
      ∧ (24 ≤ s.desk.tx.length → s.giveAnswer h.tag c r w d = { s with desk := { s.desk with
          lastAnswer := some ⟨h.tag, c, r, w, d⟩
          counters := { s.desk.counters with deskDrops := min 65535 (s.desk.counters.deskDrops + 1) } } }))
    ∧ (∀ (s : State) (t : DeskTelegram) (c : Nat) (r : Result) (w : Option Reason),
      (s.desk.tx.length < 24 → s.answerRelayed t.tag c r w t.dest = s.answeredRelayed t c r w)
      ∧ (24 ≤ s.desk.tx.length → s.answerRelayed t.tag c r w t.dest = { s with desk := { s.desk with
          counters := { s.desk.counters with deskDrops := min 65535 (s.desk.counters.deskDrops + 1) } } }))
    ∧ (∀ (s : State) (g : DeskRef) (r : Result) (w : Option Reason),
      s.answerOrder g r w = s.answerRelayed g.num 34 r w g.dest
      ∧ (s.desk.tx.length < 23 → s.answerOrder g r w true = s.answerOrder g r w)
      ∧ (23 ≤ s.desk.tx.length → s.answerOrder g r w true = { s with desk := { s.desk with
          counters := { s.desk.counters with deskDrops := min 65535 (s.desk.counters.deskDrops + 1) } } }))
    ∧ ∀ (s : State) (c : RelayClass) (l : FLine) (t : Telegram),
      (s.desk.tx.length < 20 → s.relayOut c l t = { s with desk := { s.desk with tx := s.desk.tx ++ [.relayed c l t] } })
      ∧ (20 ≤ s.desk.tx.length → s.relayOut c l t = { s with desk := { s.desk with
          counters := { s.desk.counters with deskDrops := min 65535 (s.desk.counters.deskDrops + 1) } } })

/-- A notice is stamped with the clock, enters a queue of 32 that loses its oldest, and goes out as a NOTICE below 20 telegrams;
nothing else of the state changes. Its tag counts the notice itself (the model's choice, log entry 19). -/
def Obligations.NoticeIsQueuedAndSent : Prop :=
  ∀ (s : State) (k : NoticeKind) (sub : Subject) (det : Detail),
    let n : Notice := ⟨k, sub, det, s.clock.day, s.clock.second, !s.clock.set⟩
    let tag := (s.desk.noticeTag + 1) % 256
    s.notify k sub det = { s with desk := { s.desk with
      notices := (if 32 ≤ s.desk.notices.length then s.desk.notices.drop 1 else s.desk.notices) ++ [n]
      lostNotices := if 32 ≤ s.desk.notices.length then min 65535 (s.desk.lostNotices + 1) else s.desk.lostNotices
      noticeTag := tag
      tx := if s.desk.tx.length < 20 then s.desk.tx ++ [.notice tag n] else s.desk.tx
      counters := if s.desk.tx.length < 20 then s.desk.counters
        else { s.desk.counters with deskDrops := min 65535 (s.desk.counters.deskDrops + 1) } } }
    ∧ attentionLamp (s.notify k sub det) = true

/-- A good telegram on the desk line is counted and enters the buffer, or is dropped at 8 with OVERRUN set; the beginning of a
telegram and a line error outside an exchange act on their line unit alone, nothing is heard on a line that sends, and the head of
the transmit queue leaves it as the telegram it becomes: an ANSWER or a NOTICE from station 0 to station 0 with its class, or a
relayed telegram under its envelope (the moment it leaves, and the packing of readings, are the model's choices, log entries 20
and 13). -/
def Obligations.LinesListenAndCount : Prop :=
  (∀ (r : Reception) (t : Telegram) (s : State), Settled s → receive true r = some t →
    exec (.deskTelegramReceived r) s = .next { s with desk := { s.desk with
      receiving := false
      rx := if s.desk.rx.length < 8 then s.desk.rx ++ [t] else s.desk.rx
      overrun := if s.desk.rx.length < 8 then s.desk.overrun else true
      counters := { s.desk.counters with
        telegramsIn := min 65535 (s.desk.counters.telegramsIn + 1)
        overrun := if s.desk.rx.length < 8 then s.desk.counters.overrun else min 65535 (s.desk.counters.overrun + 1) } } })
    ∧ (∀ s : State, Settled s →
      exec (.telegramBegins .d) s = .next { s with desk := { s.desk with receiving := true } }
      ∧ ∀ l, exec (.telegramBegins (.field l)) s = .next
          (if (s.line l).mode = .sending then s else s.setLine l { s.line l with receiving := true }))
    ∧ (∀ (s : State) (r : Reception), Settled s → receive true r = none →
      exec (.lineError .d r) s = .next { s with desk := { s.desk with
        receiving := false
        counters := { s.desk.counters with lineErrors := min 65535 (s.desk.counters.lineErrors + 1) } } })
    ∧ (∀ (s : State) (r : Reception) (l : FLine), Settled s → receive false r = none →
      ((s.line l).mode = .sending → exec (.lineError (.field l) r) s = .next s)
      ∧ ((s.line l).mode = .idle → exec (.lineError (.field l) r) s = .next (s.setLine l { s.line l with
          receiving := false
          counters := { (s.line l).counters with lineErrors := min 65535 ((s.line l).counters.lineErrors + 1) } })))
    ∧ (∀ s : State, Settled s → exec .deskTransmitDone s = .next (match s.desk.tx with
        | [] => s
        | o :: rest => { s with desk := { s.desk with
            tx := rest
            out := some (deskTelegram o)
            counters := { s.desk.counters with telegramsOut := min 65535 (s.desk.counters.telegramsOut + 1) } } }))
    ∧ (∀ (tag c : Nat) (r : Result) (f : Word) (w : Option Reason) (d : AnswerData), deskTelegram (.answer tag r c f w d) =
        ⟨0, 0, .answer, false, false, tag, some (0#8, 5#8),
          ([resultCode r, c, f.toNat] ++ ((w.map reasonCode).toList ++ answerWords d).take 29).map wordOf⟩)
    ∧ (∀ (tag : Nat) (n : Notice), deskTelegram (.notice tag n) =
        ⟨0, 0, .notice, false, false, tag, some (0#8, 6#8), (noticeWords n).map wordOf⟩)
    ∧ ∀ (c : RelayClass) (l : FLine) (t : Telegram), deskTelegram (.relayed c l t) =
        { t with env := some (byteOf (lineNum l), byteOf (relayCode c)) }

/-- The head of the buffer is taken by the relay unit as its row (the model's choice, log entry 1), or is a stray; an empty buffer
gives nothing to serve. -/
def Obligations.DeskHeadGoesToItsParty : Prop :=
  (∀ (s : State) (fs : Findings), Settled s → s.desk.rx = [] → exec (.deskBufferServe fs) s = .next s)
    ∧ ∀ (s : State) (fs : Findings) (t : Telegram) (rest : List Telegram), Serves s → s.desk.rx = t :: rest →
      (t.kind = .poll → 1 ≤ t.dest → t.dest ≤ 199 →
        exec (.deskBufferServe fs) s = exec (.deskPoll (deskTelegramOf t)) (s.withRx rest))
      ∧ (t.kind = .order → 1 ≤ t.dest → t.dest ≤ 199 → s.bindingOf t.dest ≠ none →
        exec (.deskBufferServe fs) s = exec (.deskOrderBound (deskTelegramOf t)) (s.withRx rest))
      ∧ (t.kind = .order → 1 ≤ t.dest → t.dest ≤ 199 → s.bindingOf t.dest = none →
        exec (.deskBufferServe fs) s = exec (.deskOrderUnbound (deskTelegramOf t)) (s.withRx rest))
      ∧ (t.kind = .poll ∨ t.kind = .order → (200 ≤ t.dest ∧ t.dest ≤ 211) ∨ t.dest = 255 →
        exec (.deskBufferServe fs) s = exec (.deskGroupTelegram (deskTelegramOf t)) (s.withRx rest))
      ∧ ((t.kind = .ask ∧ t.dest ≠ 0) ∨ ((t.kind = .poll ∨ t.kind = .order) ∧ t.dest = 0)
          ∨ (t.kind ≠ .ask ∧ t.kind ≠ .poll ∧ t.kind ≠ .order) →
        exec (.deskBufferServe fs) s = .next { s.withRx rest with desk := { (s.withRx rest).desk with
          counters := { s.desk.counters with strays := min 65535 (s.desk.counters.strays + 1) } } })

/-- An ASK to station 0 at the head of the buffer is taken as the row of its request, of a malformed ASK, or of a repeat (the
rows: the model's choice, log entry 1). The final part of a WRITE ENTRY, whose row is that of its record, is left out but for a
removal, which removes the record whatever words of an entry come with it (the model's choice, log entry 115). -/
def Obligations.AskInTheBufferIsItsRow : Prop :=
  ∀ (s : State) (fs : Findings) (t : Telegram) (rest : List Telegram), Serves s → s.desk.rx = t :: rest → t.kind = .ask → t.dest = 0 →
    let h : AskHead := ⟨t.tag, t.rept⟩
    (∀ q c, decodeAsk t.body = .ok q → askRow h fs q = some c → exec (.deskBufferServe fs) s = exec c (s.withRx rest))
    ∧ (∀ p, decodeAsk t.body = .error p → exec (.deskBufferServe fs) s = exec (.askMalformed h t.body) (s.withRx rest))
    ∧ ∀ w ws a, t.body = w :: ws → s.heldAnswer h w.toNat = some a →
        exec (.deskBufferServe fs) s = exec (.askRepeat h t.body) (s.withRx rest)

/-- While 24 telegrams wait to be sent the buffer is not served, and no row that stands for its serving does anything (the
rows: the model's choice, log entry 1). -/
def Obligations.FullTransmitQueueStopsTheDesk : Prop :=
  ∀ (c : Instr) (s : State), isDeskRow c = true → Settled s → 24 ≤ s.desk.tx.length → exec c s = .next s

/-! ### Answers to an ASK -/

/-- A repeated ASK with the tag and request code last answered is given the held answer again, with new flags, and is not acted
on. -/
def Obligations.RepeatGetsTheHeldAnswer : Prop :=
  ∀ (s : State) (h : AskHead) (w : Word) (ws : List Word) (a : LastAnswer), Serves s → s.desk.lastAnswer = some a →
    h.rep = true → a.tag = h.tag → a.request = w.toNat →
    exec (.askRepeat h (w :: ws)) s = .next { s with desk := { s.desk with
      tx := s.desk.tx ++ [.answer a.tag a.result a.request (flagsWord (!s.desk.notices.isEmpty) s.desk.overrun) a.reason a.data]
      overrun := false } }

/-- An ASK whose words make up no request is answered BAD with the place found wrong; codes outside Table 10.1 at word 1. The
answer gives what every answer to its request gives: the run state of a RUN, HOLD, STANDBY or RESTART, which also cancels the
auto-run, the watch list of a WATCH, the ring of a READ ACCOUNT. An empty body has no code to echo: a free value (log entry 14).
The run states' codes, and the oldest number of an empty ring, are the model's choices (log entries 109 and 102). -/
def Obligations.MalformedAskIsBad : Prop :=
  (∀ (s : State) (h : AskHead) (w : Word) (ws : List Word) (p : Nat), Takes s h w.toNat → decodeAsk (w :: ws) = .error p →
      ((w.toNat < 3 ∨ 6 < w.toNat) → w.toNat ≠ 11 → w.toNat ≠ 32 →
        exec (.askMalformed h (w :: ws)) s = .next (s.answered h w.toNat .bad none (.words [p])))
      ∧ (3 ≤ w.toNat → w.toNat ≤ 6 → exec (.askMalformed h (w :: ws)) s = .next
        (({ s with mem := { s.mem with autoRun := false } } : State).answered h w.toNat .bad none (.words [p, runStateCode s.runState])))
      ∧ (w.toNat = 11 → exec (.askMalformed h (w :: ws)) s = .next (s.answered h 11 .bad none (.words (p :: watchList s.dir))))
      ∧ (w.toNat = 32 → exec (.askMalformed h (w :: ws)) s = .next (s.answered h 32 .bad none
        (.words (p :: s.acct.ring.length :: two ((s.acct.ring.head?.map (·.number)).getD 0))))))
    ∧ (∀ (w : Word) (ws : List Word), w.toNat = 0 ∨ w.toNat = 17 ∨ 34 ≤ w.toNat → decodeAsk (w :: ws) = .error 1)
    ∧ ∀ (s : State) (h : AskHead), Serves s →
      exec (.askMalformed h []) s = .next
        (({ s with free := s.free + 1 } : State).answered h (Config.freeWord s.free).toNat .bad none (.words [1]))

/-! ### Table access -/

/-- READ ENTRY: up to 28 words of the part asked for, after the part number and the number of parts; BAD at the word out of its
range, NOT-FOUND for a record not held. A single-bit error found in a meter entry is corrected and counted; a double-bit error marks
it damaged, raises RECORD DAMAGED and sets carry pending (words: log entries 11, 12; errors as operands: log entry 10). -/
def Obligations.ReadEntryGivesThePart : Prop :=
  ∀ (s : State) (h : AskHead) (table index part : Nat), Takes s h 1 →
    (indexOk table index = none → exec (.readEntry h table index part []) s = .next (s.answered h 1 .bad none (.words [2])))
    ∧ (indexOk table index = some false → exec (.readEntry h table index part []) s = .next (s.answered h 1 .bad none (.words [3])))
    ∧ (indexOk table index = some true → 3 < part →
      exec (.readEntry h table index part []) s = .next (s.answered h 1 .bad none (.words [4])))
    ∧ (indexOk table index = some true → part ≤ 3 → s.entryWords table index = none →
      exec (.readEntry h table index part []) s = .next (s.answered h 1 .notFound none (.words [])))
    ∧ (∀ ws, indexOk table index = some true → part ≤ 3 → s.entryWords table index = some ws →
      exec (.readEntry h table index part []) s = .next (if max 1 ((ws.length + 27) / 28) ≤ part
        then s.answered h 1 .bad none (.words [4])
        else s.answered h 1 .done none (.words ((part * 256 + max 1 ((ws.length + 27) / 28)) :: (ws.drop (28 * part)).take 28))))
    ∧ (∀ n, n ≤ 8 → (s.meter n).damaged = false → s.mem.tracking < 254 →
      exec (.readEntry h 5 n 0 [(.meter n, .single)]) s = .next (({ s with mem := { s.mem with tracking := s.mem.tracking + 1 } } : State).answered
        h 1 .done none (.words (1 :: meterWords (s.meter n)))))
    ∧ (∀ n, n ≤ 8 → (s.meter n).damaged = false →
      let m : Meter := { s.meter n with damaged := true, carry := true }
      exec (.readEntry h 5 n 0 [(.meter n, .double)]) s = .next (((s.setMeter n m).notify .recordDamaged .none (.pair 5 n)).answered
        h 1 .done none (.words (1 :: meterWords m))))

/-- A part of a WRITE ENTRY without the final mark: part 0 begins a staged write, the part expected adds to it, any other part
is answered BAD-STATE and discards it, and a wrong table or index is answered BAD and keeps it (words: log entry 11). An EMPTY mark
on such a part empties a poll list position and is answered BAD at any entry that is neither that nor a holder, valve, district or
booster record, whatever words come with it; that it does so in this part, in this order, with the staged write at its end, and that it
is ignored at such a record, are the model's choices (log entries 125 and 115). -/
def Obligations.EntryPartIsStaged : Prop :=
  ∀ (s : State) (h : AskHead) (table index part : Nat) (empty : Bool) (ws : List Word), Takes s h 2 →
    (∀ p, writeRefusal table index part = some p →
      exec (.writeEntryPart h table index part empty ws) s = .next (s.answered h 2 .bad none (.words [p])))
    ∧ (writeRefusal table index part = none → part = 0 → empty = false ∨ table ≤ 4 →
      exec (.writeEntryPart h table index part empty ws) s = .next (({ s with desk := { s.desk with
        staged := some ⟨table, index, ws, 1⟩ } } : State).answered h 2 .done none (.words [1])))
    ∧ (∀ g, writeRefusal table index part = none → part ≠ 0 → s.desk.staged = some g → g.table = table → g.index = index → g.next = part →
      empty = false ∨ table ≤ 4 →
      exec (.writeEntryPart h table index part empty ws) s = .next (({ s with desk := { s.desk with
        staged := some ⟨table, index, g.words ++ ws, part + 1⟩ } } : State).answered h 2 .done none (.words [part + 1])))
    ∧ (writeRefusal table index part = none → empty = true → 4 < table →
      part = 0 ∨ (∃ g, s.desk.staged = some g ∧ g.table = table ∧ g.index = index ∧ g.next = part) →
      (table ≠ 9 → exec (.writeEntryPart h table index part empty ws) s = .next (s.unstaged.answered h 2 .bad none (.words [4])))
      ∧ (table = 9 → s.mem.sweep = false → exec (.writeEntryPart h table index part empty ws) s = .next
        (({ s.unstaged with polls := tblDel s.polls index, pollHoles := setErase index s.pollHoles } : State).answered
          h 2 .done none (.words []))))
    ∧ (∀ g, writeRefusal table index part = none → part ≠ 0 → s.desk.staged = some g → ¬ (g.table = table ∧ g.index = index ∧ g.next = part) →
      exec (.writeEntryPart h table index part empty ws) s = .next (s.unstaged.answered h 2 .badState none (.words [])))
    ∧ (writeRefusal table index part = none → part ≠ 0 → s.desk.staged = none →
      exec (.writeEntryPart h table index part empty ws) s = .next (s.answered h 2 .badState none (.words [])))

/-- A meter entry and a line table entry are written whole: in range they are taken, else BAD at the word out of range: a meter's
weight or limit, a line's rate (positions: log entry 12). -/
def Obligations.MeterAndLineEntriesAreWritten : Prop :=
  (∀ (s : State) (h : AskHead) (n weight limit : Nat), Takes s h 2 → n ≤ 8 →
      (1 ≤ weight → weight ≤ 10000 → 1 ≤ limit → limit ≤ 65535 → s.mem.sweep = false →
        exec (.writeMeterEntry h n weight limit) s = .next
          ((s.unstaged.setMeter n { s.meter n with weight := weight, limit := limit, damaged := false }).answered h 2 .done none (.words [])))
      ∧ (weight = 0 ∨ 10000 < weight →
        exec (.writeMeterEntry h n weight limit) s = .next (s.unstaged.answered h 2 .bad none (.words [5])))
      ∧ (1 ≤ weight → weight ≤ 10000 → limit = 0 ∨ 65535 < limit →
        exec (.writeMeterEntry h n weight limit) s = .next (s.unstaged.answered h 2 .bad none (.words [6]))))
    ∧ ∀ (s : State) (h : AskHead) (l : FLine) (r : LineSet), Takes s h 2 →
      (r.rate = 9600 ∨ r.rate = 19200 → 1 ≤ r.w1 → r.w1 ≤ 8 → 1 ≤ r.w2 → r.w2 ≤ 8 → r.budget ≤ 63 → s.mem.sweep = false →
        exec (.writeLineTable h (lineNum l) r) s = .next
          ((s.unstaged.setLine l { s.line l with set := r, damaged := false }).answered h 2 .done none (.words [])))
      ∧ (r.rate ≠ 9600 → r.rate ≠ 19200 →
        exec (.writeLineTable h (lineNum l) r) s = .next (s.unstaged.answered h 2 .bad none (.words [5])))

/-- A poll list position is written, keeping the runtime of a station it already holds, refused CONFLICT while another position
holds an enabled entry for the station, and emptied by EMPTY, from either row. -/
def Obligations.PollPositionIsWritten : Prop :=
  ∀ (s : State) (h : AskHead) (n : Nat), Takes s h 2 → 1 ≤ n → n ≤ 48 →
    (∀ r : PollRec, 1 ≤ r.station → r.station ≤ 199 → r.retries ≤ 3 → r.cls ≤ 4 → 1 ≤ r.nth → r.nth ≤ 16 →
      (s.pollConflict n r = true → exec (.writePollPosition h n (some r)) s = .next (s.unstaged.answered h 2 .conflict none (.words [])))
      ∧ (s.pollConflict n r = false → s.mem.sweep = false →
        exec (.writePollPosition h n (some r)) s = .next (({ s.unstaged with
          pollHoles := setErase n s.pollHoles
          polls := tblPut s.polls n (match s.poll n with
            | some p => if p.tab.station = r.station then { p with tab := r, damaged := false } else pollInitial r false
            | none => pollInitial r false) } : State).answered h 2 .done none (.words []))))
    ∧ (s.mem.sweep = false →
      exec (.writePollPosition h n none) s = .next (({ s.unstaged with
        pollHoles := setErase n s.pollHoles, polls := tblDel s.polls n } : State).answered h 2 .done none (.words []))
      ∧ exec (.removeRecord h 9 n) s = exec (.writePollPosition h n none) s)

/-- A directory write gives the station its line and groups: an absent station a STATIC entry with the next learned sequence, a
LEARNED entry the kind STATIC, any other its own kind. In a directory of 64 the write of an absent station evicts the LEARNED
entry with the smallest learned sequence, or, where none is LEARNED, is FULL and counted. So is every write refused FULL, of a
district too (the model's choice, log entry 104). -/
def Obligations.DirectoryEntryIsWritten : Prop :=
  ∀ (s : State) (h : AskHead) (r : DirWrite), Takes s h 2 → 1 ≤ r.station → r.station ≤ 199 →
    (∀ e, s.entry r.station = some e → ∃ t, exec (.writeDirectoryEntry h r.station r) s = .next t
      ∧ t.entry r.station = some { e with
          kind := if e.kind = .learned then .static else e.kind, line := r.line, groups := r.groups, damaged := false }
      ∧ (∀ m, m ≠ r.station → t.entry m = s.entry m)
      ∧ t.desk.lastAnswer = some ⟨h.tag, 2, .done, none, .words []⟩)
    ∧ (s.entry r.station = none → s.dir.length < 64 → ∃ t, exec (.writeDirectoryEntry h r.station r) s = .next t
      ∧ t.entry r.station = some { freshEntry r.line .static none false r.groups with seq := s.relay.creation + 1 }
      ∧ t.relay.creation = s.relay.creation + 1 ∧ (∀ m, m ≠ r.station → t.entry m = s.entry m)
      ∧ t.desk.lastAnswer = some ⟨h.tag, 2, .done, none, .words []⟩)
    ∧ (s.entry r.station = none → 64 ≤ s.dir.length → (∀ p, p ∈ s.dir → p.2.kind ≠ .learned) →
      exec (.writeDirectoryEntry h r.station r) s = .next
        (({ s.unstaged with relay := { s.relay with dirFull := min 65535 (s.relay.dirFull + 1) } } : State).answered
          h 2 .full none (.words [])))
    ∧ (∀ v e, s.entry r.station = none → 64 ≤ s.dir.length → tblWf s.dir = true → s.entry v = some e → e.kind = .learned →
      (∀ m f, s.entry m = some f → f.kind = .learned → m ≠ v → e.seq < f.seq) →
      ∃ t, exec (.writeDirectoryEntry h r.station r) s = .next t ∧ t.entry v = none
        ∧ t.entry r.station = some { freshEntry r.line .static none false r.groups with seq := s.relay.creation + 1 }
        ∧ (∀ m, m ≠ r.station → m ≠ v → t.entry m = s.entry m) ∧ t.relay.dirFull = s.relay.dirFull
        ∧ t.desk.lastAnswer = some ⟨h.tag, 2, .done, none, .words []⟩)
    ∧ ∀ e, s.countRefusal e = if e = .full
      then { s with relay := { s.relay with dirFull := min 65535 (s.relay.dirFull + 1) } } else s

/-- A record is removed by an EMPTY write where nothing holds it: the record ceases, and the others stand. -/
def Obligations.RecordIsRemoved : Prop :=
  ∀ (s : State) (h : AskHead) (n : Nat), Takes s h 2 → TablesSound s →
    (1 ≤ n → n ≤ 4 → s.holder n ≠ none → s.runState = .standby → ∃ t, exec (.removeRecord h 1 n) s = .next t ∧ t.holder n = none
      ∧ SameRecords { s with holders := tblDel s.holders n } t ∧ Answers t h 2 .done none (.words []))
    ∧ (1 ≤ n → n ≤ 8 → s.valve n ≠ none → s.valveFree n = true → s.valveParked n = false →
      ∃ t, exec (.removeRecord h 2 n) s = .next t ∧ t.valve n = none
      ∧ SameRecords { s with valves := tblDel s.valves n } t ∧ Answers t h 2 .done none (.words []))
    ∧ (∀ x, 1 ≤ n → n ≤ 8 → s.district n = some x → x.slot.state = .free → ∃ t, exec (.removeRecord h 3 n) s = .next t ∧ t.district n = none
      ∧ (t.meter n).station = none ∧ SameRecords { s with districts := tblDel s.districts n } t ∧ Answers t h 2 .done none (.words []))
    ∧ (∀ x, 1 ≤ n → n ≤ 3 → s.booster n = some x → boosterBusy x = false → ∃ t, exec (.removeRecord h 4 n) s = .next t ∧ t.booster n = none
      ∧ SameRecords { s with boosters := tblDel s.boosters n } t ∧ Answers t h 2 .done none (.words []))
    ∧ (1 ≤ n → n ≤ 4 → s.holder n = none → exec (.removeRecord h 1 n) s = .next (s.unstaged.answered h 2 .notFound none (.words [])))
    ∧ (1 ≤ n → n ≤ 4 → s.holder n ≠ none → s.runState ≠ .standby →
      exec (.removeRecord h 1 n) s = .next (s.unstaged.answered h 2 .badState none (.words [])))

/-- A holder record and a valve record that pass their checks are written, and clear a damage mark; one refused, for a word, by a
checking unit, for its binding, or as a valve not free, changes no record (positions of words: log entry 12). A holder's values are
recomputed from the height held by the new record, and its state re-derived. -/
def Obligations.HolderAndValveRecordsAreWritten : Prop :=
  (∀ (s : State) (h : AskHead) (n : Nat) (r : HolderRec), Takes s h 2 → 1 ≤ n → n ≤ 4 →
      (checkHolder r = .ok → s.holderRefusal n r = none → ∃ t, exec (.writeHolderRecord h n r) s = .next t
        ∧ SameRecords (s.setHolder n ⟨r, false, HolderRt.initial r⟩) t ∧ t.runState = s.runState ∧ t.clock = s.clock
        ∧ Answers t h 2 .done none (.words []))
      ∧ (checkHolder r = .ok → s.holderRefusal n r = none → ∃ t y, exec (.writeHolderRecord h n r) s = .next t ∧ t.holder n = some y
        ∧ y.rt.state = t.derivedState y ∧ y.rt.causes.record = false ∧ y.rt.reserveStock = stockAt r r.reserve
        ∧ ∀ x g, s.holder n = some x → x.rt.height = some g → y.rt.height = some g ∧ y.rt.stock = stockAt r g.mm
          ∧ y.rt.sighted = some (sightedAt r x.rt.sighted g.mm).1 ∧ y.rt.pressure = pressureOf r y.rt.lifts
          ∧ y.rt.lifts = if (sightedAt r x.rt.sighted g.mm).1 = .grounded then 0 else liftsAfloat r g.mm)
      ∧ (∀ e, checkHolder r = .ok → s.holderRefusal n r = some e →
        exec (.writeHolderRecord h n r) s = .next ((s.unstaged.countRefusal e).answered h 2 e none (.words [])))
      ∧ (∀ i, checkHolder r = .word i → exec (.writeHolderRecord h n r) s = .next (s.unstaged.answered h 2 .bad none (.words [5 + i]))))
    ∧ ∀ (s : State) (h : AskHead) (n : Nat) (r : ValveRec), Takes s h 2 → 1 ≤ n → n ≤ 8 →
      (r.number = n → 1 ≤ r.station → r.station ≤ 199 → 5 ≤ r.travel → r.travel ≤ 900 → s.valveFree n = true → s.valveParked n = false →
        (s.examineBindings [(.valve n, r.station)] = none → ∃ t, exec (.writeValveRecord h n r) s = .next t
          ∧ SameRecords (s.setValve n (valveInitial r false)) t ∧ t.runState = s.runState ∧ t.clock = s.clock
          ∧ Answers t h 2 .done none (.words []))
        ∧ ∀ e, s.examineBindings [(.valve n, r.station)] = some e →
          exec (.writeValveRecord h n r) s = .next ((s.unstaged.countRefusal e).answered h 2 e none (.words [])))
      ∧ (r.number = n → 1 ≤ r.station → r.station ≤ 199 → 5 ≤ r.travel → r.travel ≤ 900 → s.valveFree n = false ∨ s.valveParked n = true →
        exec (.writeValveRecord h n r) s = .next (s.unstaged.answered h 2 .badState none (.words [])))

/-- A district record and a booster record whose words are in range are written, and clear a damage mark, or are refused: a
district record for a governor order under way or for a binding, a booster record for a booster busy. -/
def Obligations.DistrictAndBoosterRecordsAreWritten : Prop :=
  (∀ (s : State) (h : AskHead) (n : Nat) (r : DistrictRec), Takes s h 2 → 1 ≤ n → n ≤ 8 → checkDistrict r = .ok →
      (s.governorHeld n r = true → exec (.writeDistrictRecord h n r) s = .next (s.unstaged.answered h 2 .badState none (.words [])))
      ∧ (∀ e, s.governorHeld n r = false → s.examineBindings (districtBindings n r) = some e →
        exec (.writeDistrictRecord h n r) s = .next ((s.unstaged.countRefusal e).answered h 2 e none (.words [])))
      ∧ (s.governorHeld n r = false → s.examineBindings (districtBindings n r) = none →
        ∃ t, exec (.writeDistrictRecord h n r) s = .next t
        ∧ SameRecords (s.setDistrict n ⟨r, false, DistrictRt.initial r false, Slot.free⟩) t ∧ (t.meter n).station = some r.meter
        ∧ t.runState = s.runState ∧ t.clock = s.clock ∧ Answers t h 2 .done none (.words [])))
    ∧ ∀ (s : State) (h : AskHead) (n : Nat) (r : BoosterRec), Takes s h 2 → 1 ≤ n → n ≤ 3 →
      1 ≤ r.station → r.station ≤ 199 → 50 ≤ r.lift → r.lift ≤ 300 → 30 ≤ r.allowance → r.allowance ≤ 600 →
      (∀ x, s.booster n = some x → boosterBusy x = true →
        exec (.writeBoosterRecord h n r) s = .next (s.unstaged.answered h 2 .badState none (.words [])))
      ∧ ((∀ x, s.booster n = some x → boosterBusy x = false) → s.examineBindings [(.booster n, r.station)] = none →
        ∃ t, exec (.writeBoosterRecord h n r) s = .next t ∧ SameRecords (s.setBooster n (Booster.initial r false)) t
        ∧ t.runState = s.runState ∧ t.clock = s.clock ∧ Answers t h 2 .done none (.words []))

/-- The yard record and the draw record that pass their checks are written, and clear a damage mark; a yard record that clears
auto-run cancels the auto-run owed (positions of words: log entry 12). -/
def Obligations.YardAndDrawRecordsAreWritten : Prop :=
  (∀ (s : State) (h : AskHead) (r : YardRec), Takes s h 2 → checkYard r = .ok →
      (s.examineBindings ((r.makeMeter.map fun st => (Binding.makeMeter, st)).toList) = none →
        ∃ t, exec (.writeYardRecord h r) s = .next t
        ∧ SameRecords { s with yard := r, yardPresent := true, yardDamaged := false } t ∧ (t.meter 0).station = r.makeMeter
        ∧ t.mem.autoRun = (r.autoRun && s.mem.autoRun) ∧ t.runState = s.runState ∧ t.clock = s.clock
        ∧ Answers t h 2 .done none (.words []))
      ∧ ∀ e, s.examineBindings ((r.makeMeter.map fun st => (Binding.makeMeter, st)).toList) = some e →
        exec (.writeYardRecord h r) s = .next ((s.unstaged.countRefusal e).answered h 2 e none (.words [])))
    ∧ ∀ (s : State) (h : AskHead) (r : DrawRec), Takes s h 2 →
      (checkDraw r = .ok → ∃ t, exec (.writeDrawRecord h r) s = .next t
        ∧ SameRecords { s with draw := { s.draw with tab := r, recDamaged := false } } t
        ∧ t.runState = s.runState ∧ t.clock = s.clock ∧ SameSamples s t ∧ Answers t h 2 .done none (.words []))
      ∧ ∀ i, checkDraw r = .word i → exec (.writeDrawRecord h r) s = .next (s.unstaged.answered h 2 .bad none (.words [5 + i]))

/-! ### Run state, clock, flags, notices, counters -/

/-- RUN: DONE without change in RUN; refused MISSING-TABLE for the first table missing, then UNPOLLED; else the run state is
RUN. Each answer gives the run state, and any of them cancels the auto-run owed. The run states' codes: the model's choice (log
entry 109). -/
def Obligations.RunIsCheckedAndEntered : Prop :=
  ∀ (s : State) (h : AskHead), Takes s h 3 →
    let u : State := { s with mem := { s.mem with autoRun := false } }
    (s.runState = .run → exec (.run h) s = .next (u.answered h 3 .done none (.words [1])))
    ∧ (s.runState ≠ .run → s.holders = [] →
      exec (.run h) s = .next (u.answered h 3 .refused (some .missingTable) (.words [1, runStateCode s.runState])))
    ∧ (s.runState ≠ .run → s.holders ≠ [] → s.districts = [] →
      exec (.run h) s = .next (u.answered h 3 .refused (some .missingTable) (.words [2, runStateCode s.runState])))
    ∧ (s.runState ≠ .run → s.holders ≠ [] → s.districts ≠ [] → s.yardPresent = false ∨ s.yardDamaged = true →
      exec (.run h) s = .next (u.answered h 3 .refused (some .missingTable) (.words [3, runStateCode s.runState])))
    ∧ (∀ st rest, s.runState ≠ .run → s.holders ≠ [] → s.districts ≠ [] → s.yardPresent = true → s.yardDamaged = false →
      s.unpolled = st :: rest →
      exec (.run h) s = .next (u.answered h 3 .refused (some .unpolled) (.words [st, rest.length + 1, runStateCode s.runState])))
    ∧ (s.runState ≠ .run → s.holders ≠ [] → s.districts ≠ [] → s.yardPresent = true → s.yardDamaged = false → s.unpolled = [] →
      ∃ t, exec (.run h) s = .next t ∧ t.runState = .run ∧ runLamp t = true ∧ SameMoment { u with runState := .run } t
        ∧ SameRecords s t ∧ SameSamples s t ∧ Answers t h 3 .done none (.words [1]))

/-- HOLD is taken from RUN only; STANDBY is taken in any run state. Each answer gives the run state (its codes: the model's choice,
log entry 109). -/
def Obligations.HoldAndStandbyAreEntered : Prop :=
  ∀ (s : State) (h : AskHead),
    let u : State := { s with mem := { s.mem with autoRun := false } }
    (Takes s h 4 → s.runState = .run → ∃ t, exec (.hold h) s = .next t ∧ t.runState = .hold ∧ SameMoment { u with runState := .hold } t
      ∧ SameRecords s t ∧ SameSamples s t ∧ Answers t h 4 .done none (.words [2]))
    ∧ (Takes s h 4 → s.runState ≠ .run →
      exec (.hold h) s = .next (u.answered h 4 .badState none (.words [runStateCode s.runState])))
    ∧ (Takes s h 5 → exec (.standby h) s = .next (({ u with runState := .standby } : State).answered h 5 .done none (.words [0])))

/-- RESTART: STANDBY, the lines idle and cleared, the directory less its LEARNED entries and with no station lost, the rota
STOPPED, no flood or open order left, the cycle begun anew; the clock, yard flags 0-5 and the records stay, and a telegram being
sent is completed, its exchange taking the line's next tag. Where yard main pressure stands, every slot is FREE, every queue empty
and the ANSWER the first telegram on D at once, and the notices stay where no sweep runs (a telegram being sent: log entry 28; the
flags of the ANSWER, given before the CHECK ABORTED of a sweep: log entry 50; the code of STANDBY: log entry 109). -/
def Obligations.RestartBeginsAfresh : Prop :=
  ∀ (s : State) (h : AskHead), Takes s h 6 →
    (∃ t, exec (.restart h) s = .next t ∧ t.runState = .standby ∧ t.clock = s.clock ∧ t.elapsed = s.elapsed
      ∧ t.flags &&& 0x3F#8 = s.flags &&& 0x3F#8 ∧ SameRecords s t ∧ t.dir = restartDirectory s.dir
      ∧ t.relay.floods = [] ∧ t.relay.allowance = 0 ∧ t.acct.ring = s.acct.ring
      ∧ t.cycle = { s.cycle with number := 0, due := s.elapsed + s.yardNow.cyclePeriod, period := s.yardNow.cyclePeriod }
      ∧ t.desk.rx = [] ∧ t.desk.staged = none ∧ t.mem = { s.mem with autoRun := false, sweep := false }
      ∧ t.fill.running = false ∧ t.fill.turnDue = none ∧ t.fill.turn = s.fill.turn
      ∧ (∀ l, (t.line l).mode = .idle ∧ (t.line l).exch = none ∧ (t.line l).sending = none ∧ (t.line l).quarantined = false
        ∧ (t.line l).fails = 0 ∧ (t.line l).alerts = 0 ∧ (t.line l).counters = Counters.zero
        ∧ ((s.line l).mode ≠ .sending ∨ (s.line l).exch ≠ none → (t.line l).tag = (s.line l).tag)
        ∧ ∀ o x, (s.line l).mode = .sending → (s.line l).exch = none → (s.line l).sending = some (o, x) →
          (t.line l).tag = if opensExchange x then ((s.line l).tag + 1) % 256 else (s.line l).tag)
      ∧ t.desk.lastAnswer = some ⟨h.tag, 6, .done, none, .words [0]⟩)
    ∧ (s.restartUnits.draw.main = s.draw.main → s.restartUnits.draw.mainStale = s.draw.mainStale →
      ∃ t, exec (.restart h) s = .next t ∧ SlotsFree t
        ∧ (∀ v, t.valveState v = (s.valveState v).map fun st => if st = .opening ∨ st = .shutting then VState.unknown else st)
        ∧ (∀ l, (t.line l).q0 = [] ∧ (t.line l).q1 = [] ∧ (t.line l).q2 = [] ∧ (t.line l).selected = none)
        ∧ t.desk.tx.head? = some (.answer h.tag .done 6
          (flagsWord (!s.desk.notices.isEmpty) (s.desk.overrun || !s.desk.rx.isEmpty)) none (.words [0]))
        ∧ (∀ o rest, s.desk.tx = o :: rest → t.desk.out = some (deskTelegram o)) ∧ (s.desk.tx = [] → t.desk.out = s.desk.out)
        ∧ (s.mem.sweep = false → t.desk.notices = s.desk.notices ∧ t.desk.lostNotices = s.desk.lostNotices
          ∧ t.desk.noticeTag = s.desk.noticeTag))

/-- SET CLOCK sets the clock and answers with the clock held before; with no district it moves only the clock, the minute
boundary, and the open account's mark and close due (the minute boundary as a state, and the words of the answer, are the model's
choices, log entries 7 and 11). A second out of range is BAD at the first of its two words (the model's choice, log entry 117). -/
def Obligations.SetClockSetsTheClock : Prop :=
  ∀ (s : State) (h : AskHead) (day second : Nat), Takes s h 7 →
    (day ≤ 65535 → second < 86400 →
      (∃ t, exec (.setClock h day second) s = .next t ∧ t.clock = ⟨day, second, true⟩ ∧ t.minuteDue = false ∧ t.elapsed = s.elapsed
        ∧ SameMoment { s with clock := ⟨day, second, true⟩, minuteDue := false } t ∧ SameRecords s t ∧ SameSamples s t
        ∧ Answers t h 7 .done none (.words ([s.clock.day] ++ two s.clock.second ++ [bit s.clock.set])))
      ∧ (s.districts = [] → exec (.setClock h day second) s = .next (({ s with
          clock := ⟨day, second, true⟩
          minuteDue := false
          acct := { s.acct with openAcct := { s.acct.openAcct with
            clockChanged := true
            closeDue := s.elapsed + (60 * s.acct.openAcct.length - second % (60 * s.acct.openAcct.length)) } } } : State).answered
          h 7 .done none (.words ([s.clock.day] ++ two s.clock.second ++ [bit s.clock.set])))))
    ∧ (65535 < day → exec (.setClock h day second) s = .next (s.answered h 7 .bad none (.words [2])))
    ∧ (day ≤ 65535 → 86400 ≤ second → exec (.setClock h day second) s = .next (s.answered h 7 .bad none (.words [3])))

/-- SET FLAGS applies the two-bit codes to flags 0-5 and ignores those of flags 6 and 7; where no district follows a flag that
changed, nothing else happens. -/
def Obligations.SetFlagsAppliesTheCodes : Prop :=
  (∀ (fs : BitVec 8) (codes : Word),
      (∀ i, i < 6 → (applyFlags codes fs).getLsbD i = (match codes.toNat / 4 ^ i % 4 with
        | 0 => fs.getLsbD i
        | 1 => true
        | 2 => false
        | _ => !fs.getLsbD i))
      ∧ (applyFlags codes fs).getLsbD 6 = fs.getLsbD 6 ∧ (applyFlags codes fs).getLsbD 7 = fs.getLsbD 7)
    ∧ ∀ (s : State) (h : AskHead) (codes : Word), Takes s h 8 →
      (∃ t, exec (.setFlags h codes) s = .next t ∧ (∀ i, i < 6 → t.flags.getLsbD i = (applyFlags codes s.flags).getLsbD i)
        ∧ SameMoment { s with flags := applyFlags codes s.flags } t ∧ SameRecords s t ∧ SameSamples s t)
      ∧ ((∀ p, p ∈ s.districts → flagNamed s.flags (applyFlags codes s.flags) p.2 = false) →
        exec (.setFlags h codes) s = .next (({ s with flags := applyFlags codes s.flags } : State).answered h 8 .done none
          (.words [(applyFlags codes s.flags).toNat])))

/-- READ NOTICES removes the oldest notices asked for and gives them in seven words each; the flags of its ANSWER are those
after the removal; a notice raised joins the queue behind those left. -/
def Obligations.ReadNoticesTakesTheOldest : Prop :=
  (∀ (s : State) (h : AskHead) (count : Nat), Takes s h 9 →
      (count = 0 ∨ 4 < count → exec (.readNotices h count) s = .next (s.answered h 9 .bad none (.words [2])))
      ∧ (1 ≤ count → count ≤ 4 → s.desk.notices = [] → exec (.readNotices h count) s = .next (s.answered h 9 .empty none (.words [])))
      ∧ (1 ≤ count → count ≤ 4 → s.desk.notices ≠ [] →
        exec (.readNotices h count) s = .next (({ s with desk := { s.desk with notices := s.desk.notices.drop count } } : State).answered
          h 9 .done none (.words (min count s.desk.notices.length :: (s.desk.notices.take count).flatMap noticeWords)))))
    ∧ (∀ n : Notice, (noticeWords n).length = 7)
    ∧ ∀ (s : State) (k : NoticeKind) (sub : Subject) (det : Detail), s.desk.notices.length < 32 →
      (s.notify k sub det).desk.notices = s.desk.notices ++ [⟨k, sub, det, s.clock.day, s.clock.second, !s.clock.set⟩]

/-- READ COUNTS gives the counters of a line or of the part, and with the clear mark sets them to 0 after copying them
(the words of group and mark: log entry 11). -/
def Obligations.ReadCountsGivesAndClears : Prop :=
  ∀ (s : State) (h : AskHead) (group clear : Nat), Takes s h 10 →
    let c := s.desk.counters
    (4 < group → exec (.readCounts h group clear) s = .next (s.answered h 10 .bad none (.words [2])))
    ∧ (group ≤ 4 → 1 < clear → exec (.readCounts h group clear) s = .next (s.answered h 10 .bad none (.words [3])))
    ∧ exec (.readCounts h 0 0) s = .next (s.answered h 10 .done none (.words
        [c.telegramsIn, c.telegramsOut, c.lineErrors, c.strays, c.chatter, c.deskDrops, c.overrun, c.quarantine]))
    ∧ exec (.readCounts h 0 1) s = .next (({ s with desk := { s.desk with counters := Counters.zero } } : State).answered h 10 .done none
        (.words [c.telegramsIn, c.telegramsOut, c.lineErrors, c.strays, c.chatter, c.deskDrops, c.overrun, c.quarantine]))
    ∧ (∀ l : FLine, exec (.readCounts h (lineNum l) 0) s = .next (s.answered h 10 .done none (.words (counterWords (s.line l).counters)))
      ∧ exec (.readCounts h (lineNum l) 1) s = .next ((s.setLine l { s.line l with counters := Counters.zero }).answered h 10 .done none
        (.words (counterWords (s.line l).counters))))
    ∧ exec (.readCounts h 4 0) s = .next (s.answered h 10 .done none (.words [s.relay.dirFull, s.desk.lostNotices, s.mem.tracking]))
    ∧ exec (.readCounts h 4 1) s = .next (({ s with
        relay := { s.relay with dirFull := 0 }
        desk := { s.desk with lostNotices := 0 }
        mem := { s.mem with tracking := 0 } } : State).answered h 10 .done none
          (.words [s.relay.dirFull, s.desk.lostNotices, s.mem.tracking]))

/-! ### The directory, the table check and the store -/

/-- WATCH sets or clears a station's watch flag, refused FULL at 4 stations watched; every answer gives the watch list. SEARCH
gives the first four entries from the start that match the filter, the station after them, and the entries held by kind. The
settings' words and the station after: the model's choices (log entries 11, 44). -/
def Obligations.WatchAndSearchTheDirectory : Prop :=
  (∀ (s : State) (h : AskHead) (station setting : Nat), Takes s h 11 →
      (station = 0 ∨ 199 < station → exec (.watch h station setting) s = .next (s.answered h 11 .bad none (.words (2 :: watchList s.dir))))
      ∧ (1 ≤ station → station ≤ 199 → 1 < setting →
        exec (.watch h station setting) s = .next (s.answered h 11 .bad none (.words (3 :: watchList s.dir))))
      ∧ (1 ≤ station → station ≤ 199 → setting ≤ 1 → s.entry station = none →
        exec (.watch h station setting) s = .next (s.answered h 11 .notFound none (.words (watchList s.dir))))
      ∧ (∀ e, 1 ≤ station → station ≤ 199 → s.entry station = some e → e.watch = false → 4 ≤ (watchList s.dir).length →
        exec (.watch h station 0) s = .next (s.answered h 11 .full none (.words (watchList s.dir))))
      ∧ (∀ e, 1 ≤ station → station ≤ 199 → s.entry station = some e → e.watch = true ∨ (watchList s.dir).length < 4 →
        exec (.watch h station 0) s = .next ((s.setEntry station { e with watch := true }).answered h 11 .done none
          (.words (watchList (tblPut s.dir station { e with watch := true })))))
      ∧ (∀ e, 1 ≤ station → station ≤ 199 → s.entry station = some e →
        exec (.watch h station 1) s = .next ((s.setEntry station { e with watch := false }).answered h 11 .done none
          (.words (watchList (tblPut s.dir station { e with watch := false }))))))
    ∧ ∀ (s : State) (h : AskHead) (start line kind group : Nat), Takes s h 12 →
      (start = 0 ∨ 199 < start → exec (.search h start line kind group) s = .next (s.answered h 12 .bad none (.words [2])))
      ∧ (1 ≤ start → start ≤ 199 → line ≤ 4 → kind ≤ 3 → group = 0 ∨ (200 ≤ group ∧ group ≤ 211) →
        let hits := s.dir.filter fun p => decide (start ≤ p.1) && searchMatch line kind group p.2
        exec (.search h start line kind group) s = .next (s.answered h 12 .done none
          (.entries (hits.take 4) ((hits.drop 4).head?.map (·.1)) (countKind s.dir .learned) (countKind s.dir .static) (countKind s.dir .bound))))

/-- DELETE removes a LEARNED or STATIC entry, and CLEAR every LEARNED entry, answering with their number; the telegrams queued
stay where they stand. -/
def Obligations.DeleteAndClearRemoveEntries : Prop :=
  (∀ (s : State) (h : AskHead) (station : Nat), Takes s h 13 →
      (station = 0 ∨ 199 < station → exec (.delete h station) s = .next (s.answered h 13 .bad none (.words [2])))
      ∧ (1 ≤ station → station ≤ 199 → s.entry station = none →
        exec (.delete h station) s = .next (s.answered h 13 .notFound none (.words [])))
      ∧ (∀ e, 1 ≤ station → station ≤ 199 → s.entry station = some e → e.kind = .bound →
        exec (.delete h station) s = .next (s.answered h 13 .badState none (.words [])))
      ∧ (∀ e, 1 ≤ station → station ≤ 199 → s.entry station = some e → e.kind ≠ .bound → s.mem.sweep = false →
        exec (.delete h station) s = .next (({ s with dir := tblDel s.dir station } : State).answered h 13 .done none (.words []))))
    ∧ ∀ (s : State) (h : AskHead), Takes s h 14 → s.mem.sweep = false →
      exec (.clear h) s = .next (({ s with dir := s.dir.filter fun p => p.2.kind != .learned } : State).answered h 14 .done none
        (.words [(s.dir.filter fun p => p.2.kind == .learned).length]))

/-- TABLE CHECK starts a sweep, or is BUSY; the sweep ends with CHECK DONE and the counts of what it corrected and found damaged; a
taken table write (CLEAR here) aborts it with CHECK ABORTED. A double-bit error marks its record, raises RECORD DAMAGED and acts at
its owner as Table 11.1 gives; a single-bit error that the sweep's read meets is corrected and counted, with no command waiting or
in the step that ends the sweep; a READ COUNTS gives the count with the error of its own step in it, and a READ VALVE whose read
finds a double-bit error gives the fallback values of the record (log entry 10), with the record's own station where no entry is bound
to the valve (the model's choice, log entry 118). -/
def Obligations.TableCheckSweeps : Prop :=
  (∀ (s : State) (h : AskHead), Takes s h 15 → exec (.tableCheck h) s = .next (if s.mem.sweep
      then s.answered h 15 .busy none (.words [])
      else ({ s with mem := { s.mem with sweep := true, swept := (0, 0) } } : State).answered h 15 .started none (.words [])))
    ∧ (∀ s : State, Settled s → exec (.tableCheckDone []) s = .next (if s.mem.sweep
      then ({ s with mem := { s.mem with sweep := false } } : State).notify .checkDone .none (.pair s.mem.swept.1 s.mem.swept.2)
      else s))
    ∧ (∀ (s : State) (h : AskHead), Takes s h 14 → s.mem.sweep = true →
      exec (.clear h) s = .next ((({ s with dir := dropLearned s.dir, mem := { s.mem with sweep := false } } : State).notify
        .checkAborted .none .absent).answered h 14 .done none (.words [countKind s.dir .learned])))
    ∧ (∀ (s : State) (n : Nat), Settled s → s.mem.sweep = true → n ≤ 8 → (s.meter n).damaged = false → s.mem.tracking < 254 →
      let u := s.meeting [⟨.meter n, .single, true⟩]
      let m : TableMem := { s.mem with tracking := s.mem.tracking + 1, swept := (s.mem.swept.1 + 1, s.mem.swept.2) }
      (s.pending = [] → step u = .next { s with mem := m })
      ∧ exec (.tableCheckDone []) u = .next (({ s with mem := { m with sweep := false } } : State).notify .checkDone .none
          (.pair (s.mem.swept.1 + 1) s.mem.swept.2)))
    ∧ (∀ (s : State) (h : AskHead) (n : Nat), Takes s h 10 → n ≤ 8 → (s.meter n).damaged = false → s.mem.tracking < 254 →
      exec (.readCounts h 4 0) (s.meeting [⟨.meter n, .single, false⟩]) = .next (({ s with
        mem := { s.mem with tracking := s.mem.tracking + 1 } } : State).answered h 10 .done none
          (.words [s.relay.dirFull, s.desk.lostNotices, s.mem.tracking + 1])))
    ∧ (∀ (s : State) (h : AskHead) (n : Nat) (x : Valve), Takes s h 22 → 1 ≤ n → n ≤ 8 → s.valve n = some x → x.damaged = false →
      let u := (s.setValve n { x with damaged := true }).notify .recordDamaged .none (.pair 2 n)
      exec (.readValve h n) (s.meeting [⟨.valve n, .double, false⟩]) = .next (u.answered h 22 .done none
        (.valve ((s.boundTo (.valve n)).getD x.tab.station) 900 1125 x.state x.localHand (s.shownSlot x.slot))))
    ∧ (∀ (s : State) (n : Nat) (x : Holder), s.holder n = some x → s.recordDamaged (.holder n) =
        ((s.setHolder n { x with damaged := true }).notify .recordDamaged .none (.pair 1 n)).hand [.addCause n .record])
    ∧ (∀ (s : State) (n : Nat) (x : Valve), s.valve n = some x → s.recordDamaged (.valve n) =
        (s.setValve n { x with damaged := true }).notify .recordDamaged .none (.pair 2 n))
    ∧ (∀ (s : State) (n : Nat) (x : District), s.district n = some x → s.recordDamaged (.district n) =
        ((s.setDistrict n { x with damaged := true, rt := { x.rt with target := none, seg := none } }).notify .recordDamaged .none
          (.pair 3 n)).hand [.districtDerive n, .shed n])
    ∧ (∀ (s : State) (n : Nat) (x : Booster), s.booster n = some x → x.state = .free ∨ x.state = .failed → s.recordDamaged (.booster n) =
        (s.setBooster n { x with damaged := true, state := .out }).notify .recordDamaged .none (.pair 4 n))
    ∧ (∀ (s : State) (st : Nat) (e : DirEntry), s.entry st = some e →
      (e.kind = .bound → s.recordDamaged (.directory st) =
        ((s.setEntry st { e with damaged := true, line := none, groups := 0#12, lost := true }).notify .recordDamaged .none
          (.pair 11 st)).hand [.stationLost st])
      ∧ (e.kind ≠ .bound → s.recordDamaged (.directory st) =
        ({ s with dir := tblDel s.dir st } : State).notify .recordDamaged .none (.pair 11 st)))
    ∧ ∀ s : State, (s.recordDamaged .draw).drawRec = ⟨[], 1⟩ ∧ (s.recordDamaged .drawMode).drawMode = .manual
      ∧ (s.recordDamaged .poolMode).poolMode = .manual
      ∧ (∀ l, lineSet ((s.recordDamaged (.line l)).line l) = ⟨9600, 2, 1, 16⟩)
      ∧ (s.recordDamaged .yard).yardNow = { YardRec.default with makeMeter := s.boundTo .makeMeter }
      ∧ ((s.recordDamaged .yard).meter 0).station = s.boundTo .makeMeter
      ∧ ∀ i t, s.fill.work[i]? = some t → ((s.recordDamaged (.turnWork i)).fill.work[i]?).map turnHolder = some 0

/-- STORE TABLES takes a snapshot, with SKIP for the blocks named; each block written good or bad goes on as 11.3 gives, and the
last one raises STORE DONE with the number written good. The word that names the blocks skipped is the model's choice (log entry 11). -/
def Obligations.StoreWriteRunsBlockByBlock : Prop :=
  (∀ (s : State) (h : AskHead) (skip : Word), Takes s h 16 →
      (skipOk skip = false → exec (.storeTables h skip []) s = .next (s.answered h 16 .bad none (.words [2])))
      ∧ (∀ w, skipOk skip = true → s.mem.writing = some w → exec (.storeTables h skip []) s = .next (s.answered h 16 .busy none (.words [])))
      ∧ (skipOk skip = true → s.mem.writing = none →
        let image : List Block := [1, 2, 3, 4, 5, 6, 7, 9, 11, 12, 13, 14].map fun c =>
          ⟨c, if skip.getLsbD c then none else some (s.blockContent c), true⟩
        exec (.storeTables h skip []) s = .next (({ s with mem := { s.mem with writing := some ⟨image, 0, false⟩ } } : State).answered
          h 16 .started none (.words []))))
    ∧ (∀ (s : State) (good : Bool), Settled s → s.mem.writing = none → exec (.storeBlockWritten good) s = .next s)
    ∧ ∀ (s : State) (b : Block) (rest : List Block) (k : Nat) (again : Bool), Settled s → s.mem.writing = some ⟨b :: rest, k, again⟩ →
      let put := fun (good : Bool) (w : Option StoreWrite) => ({ s with mem := { s.mem with
        store := putBlock s.mem.store { b with good := good }, writing := w } } : State)
      exec (.storeBlockWritten true) s = .next (if rest = [] then (put true none).notify .storeDone .none (.one ((k + 1 : Nat) : Int))
        else put true (some ⟨rest, k + 1, false⟩))
      ∧ exec (.storeBlockWritten false) s = .next (if again = false then put false (some ⟨b :: rest, k, true⟩)
        else if rest = [] then (put false none).notify .storeDone .none (.one (k : Int)) else put false (some ⟨rest, k, false⟩))

/-! ### Requests of the units -/

/-- READ HOLDER, READ VALVE, READ DISTRICT and READ BOOSTERS give the runtime records with the seconds to each timer's expiry,
each slot in one form that shows a FREE slot without an order, and change nothing; a number out of range is BAD, a record not held
NOT-FOUND. -/
def Obligations.ReadingsGiveTheRecords : Prop :=
  (∀ (s : State) (h : AskHead) (n : Nat), Takes s h 18 →
      (n = 0 ∨ 4 < n → exec (.readHolder h n) s = .next (s.answered h 18 .bad none (.words [2])))
      ∧ (1 ≤ n → n ≤ 4 → s.holder n = none → exec (.readHolder h n) s = .next (s.answered h 18 .notFound none (.words [])))
      ∧ ∀ x, 1 ≤ n → n ≤ 4 → s.holder n = some x → exec (.readHolder h n) s = .next (s.answered h 18 .done none
          (.holder x.rt (x.rt.graceDue.map fun t => t - s.elapsed) (x.rt.park.map fun p => p.due - s.elapsed))))
    ∧ (∀ (s : State) (h : AskHead) (n : Nat), Takes s h 22 →
      (n = 0 ∨ 8 < n → exec (.readValve h n) s = .next (s.answered h 22 .bad none (.words [2])))
      ∧ (1 ≤ n → n ≤ 8 → s.valve n = none → exec (.readValve h n) s = .next (s.answered h 22 .notFound none (.words [])))
      ∧ ∀ x, 1 ≤ n → n ≤ 8 → s.valve n = some x → x.damaged = false → exec (.readValve h n) s = .next (s.answered h 22 .done none
          (.valve x.tab.station x.tab.travel (x.tab.travel + (x.tab.travel + 3) / 4) x.state x.localHand (s.shownSlot x.slot))))
    ∧ (∀ (s : State) (h : AskHead) (n : Nat), Takes s h 28 →
      (n = 0 ∨ 8 < n → exec (.readDistrict h n) s = .next (s.answered h 28 .bad none (.words [2])))
      ∧ (1 ≤ n → n ≤ 8 → s.district n = none → exec (.readDistrict h n) s = .next (s.answered h 28 .notFound none (.words [])))
      ∧ ∀ x, 1 ≤ n → n ≤ 8 → s.district n = some x → exec (.readDistrict h n) s = .next (s.answered h 28 .done none
          (.district x.rt (x.rt.seg.bind (segmentOf x.tab)) (x.rt.settleDue.map fun t => t - s.elapsed)
            ((s.draw.main : Int) + x.tab.headGain) s.yardNow.margin (s.shownSlot x.slot))))
    ∧ (∀ (s : State) (h : AskHead), Takes s h 31 → exec (.readBoosters h) s = .next (s.answered h 31 .done none
        (.boosters { s.pool with mode := s.poolMode } (s.boosters.map fun p => s.shownBooster p.1 p.2)
          (s.pool.recoveryDue.map fun t => t - s.elapsed) (s.districts.map fun p => (p.1, p.2.rt.shed)))))
    ∧ (∀ (s : State) (n : Nat) (x : Booster), s.shownBooster n x =
        { number := n, tab := { x.tab with lift := boosterLift x, allowance := boosterAllowance x }, state := x.state, district := x.district,
          releaseLeft := x.releaseDue.map fun t => t - s.elapsed, stopDue := x.stopDue, cause := x.cause, sample := x.sample,
          undecidedLeft := x.undecided.map fun t => t - s.elapsed, slot := s.shownSlot x.slot })
    ∧ ∀ (s : State) (sl : Slot), (sl.state = .free → s.shownSlot sl = ⟨.free, none⟩)
      ∧ (sl.state ≠ .free → s.shownSlot sl = ⟨sl.state, some ⟨sl.code, sl.origin, sl.tag.map (·.num), s.elapsed - sl.issued,
          sl.deadline.map fun t => t - s.elapsed, sl.checkPending, sl.followUp.map fun f => (f.origin, f.tag.map (·.num))⟩⟩)

/-- BAR and UNBAR set and clear the bars selected; CLEAR FAULT clears a latch with no cause left and re-derives the state, else
is BAD-STATE with the causes. The state is derived from the five lines of R11; a holder enters a new one with its safety shuts (a
parked order after them: the model's choice, log entry 52), and a change of pressure, stock or their stale mark alone is handed on.
The selections' words are the model's choice (log entry 11). -/
def Obligations.BarsAndFaultLatchAreSet : Prop :=
  (∀ (s : State) (h : AskHead) (n sel : Nat) (set : Bool),
      let code := if set then 19 else 20
      let row : Instr := if set then .bar h n sel else .unbar h n sel
      Takes s h code →
      (n = 0 ∨ 4 < n → exec row s = .next (s.answered h code .bad none (.words [2])))
      ∧ (1 ≤ n → n ≤ 4 → 2 < sel → exec row s = .next (s.answered h code .bad none (.words [3])))
      ∧ (1 ≤ n → n ≤ 4 → sel ≤ 2 → s.holder n = none → exec row s = .next (s.answered h code .notFound none (.words [])))
      ∧ ∀ x, 1 ≤ n → n ≤ 4 → sel ≤ 2 → s.holder n = some x →
        let y : Holder := { x with rt := { x.rt with
          fillBar := if sel = 1 then x.rt.fillBar else set, drawBar := if sel = 0 then x.rt.drawBar else set } }
        ∃ t, exec row s = .next t ∧ (t.holder n).map (fun z => (z.rt.fillBar, z.rt.drawBar)) = some (y.rt.fillBar, y.rt.drawBar)
          ∧ SameMoment s t ∧ SameRecords s t ∧ SameSamples (s.setHolder n y) t ∧ Answers t h code .done none (.words []))
    ∧ (∀ (s : State) (h : AskHead) (n : Nat), Takes s h 21 →
      (n = 0 ∨ 4 < n → exec (.clearFault h n) s = .next (s.answered h 21 .bad none (.words [2])))
      ∧ (1 ≤ n → n ≤ 4 → s.holder n = none → exec (.clearFault h n) s = .next (s.answered h 21 .notFound none (.words [])))
      ∧ (∀ x, 1 ≤ n → n ≤ 4 → s.holder n = some x → x.rt.latch = false →
        exec (.clearFault h n) s = .next (s.answered h 21 .badState none (.causes Causes.empty)))
      ∧ (∀ x, 1 ≤ n → n ≤ 4 → s.holder n = some x → x.rt.latch = true → x.rt.causes.isEmpty = false →
        exec (.clearFault h n) s = .next (s.answered h 21 .badState none (.causes x.rt.causes)))
      ∧ (∀ x, 1 ≤ n → n ≤ 4 → s.holder n = some x → x.rt.latch = true → x.rt.causes.isEmpty = true →
        let y : Holder := { x with rt := { x.rt with latch := false } }
        ∃ t, exec (.clearFault h n) s = .next t ∧ SameMoment s t ∧ SameRecords s t
          ∧ SameSamples (s.setHolder n { y with rt := { y.rt with state := s.derivedState y } }) t ∧ Answers t h 21 .done none (.words [])))
    ∧ (∀ (s : State) (x : Holder), (x.tab.inService = false → s.derivedState x = .out)
      ∧ (x.tab.inService = true → x.rt.latch = true → s.derivedState x = .fault)
      ∧ (x.tab.inService = true → x.rt.latch = false → x.rt.sighted = none → s.derivedState x = .out)
      ∧ ∀ g, x.tab.inService = true → x.rt.latch = false → x.rt.sighted = some g →
        (s.isLost x.tab.gauge = true → s.derivedState x = .blind)
        ∧ (s.isLost x.tab.gauge = false → s.derivedState x = match g with
          | .grounded => .grounded
          | .low => .low
          | .working => .working
          | .cup => .cup
          | .high => .high
          | .top => .top))
    ∧ ∀ (s : State) (n : Nat) (x : Holder) (held : HolderRt), s.holder n = some x →
      let st := s.derivedState x
      let y : Holder := { x with rt := { x.rt with
        state := st
        longStill := x.rt.longStill && st != .blind
        noticed := ⟨x.rt.noticed.top && st == .top, x.rt.noticed.grounded && st == .grounded, x.rt.noticed.fault && st == .fault,
          x.rt.noticed.blind && st == .blind⟩
        graceDue := if st = .blind ∧ (s.valveState x.tab.inlet = some .opened ∨ s.valveState x.tab.inlet = some .opening)
          then some (s.elapsed + 60 * x.tab.blindGrace) else none
        blindShutDue := false } }
      (st ≠ x.rt.state → s.rederiveFrom n held = ((s.setHolder n y).entryShuts n y st).hand
        ((if x.rt.state = .cup ∧ x.rt.park ≠ none then [.regate n] else [])
          ++ (if (x.rt.state = .working ∧ st = .cup) ∨ (x.rt.state = .cup ∧ st = .working) then [] else [.holderNotice n st])
          ++ [.holderTold n true]))
      ∧ (st = x.rt.state → s.rederiveFrom n held =
        if x.rt.pressure = held.pressure ∧ x.rt.stock = held.stock ∧ x.rt.stale = held.stale then s else s.hand [.holderTold n false])

/-- LOAD ROTA writes the pending copy, and the working copy too while the rota is STOPPED. START ROTA is BAD-STATE while RUNNING
or with more than one inlet counted, else starts at turn 0 with the turn timer running; a selection follows in RUN only. A selection
takes the first eligible holder of the turns from the current one on, else the filling holder that may continue; another holder than
the filling one begins a changeover, none leaves the make unplaced. The changeover opens the new inlet of a holder
still eligible when its start conditions hold, then shuts the old one; it is abandoned when the new holder ceases to be eligible, and ended with its notice. One word for each
turn, and selection due over a changeover that failed, are the model's choices (log entries 11 and 55). -/
def Obligations.RotaIsLoadedAndStarted : Prop :=
  (∀ (s : State) (h : AskHead) (ts : List Nat), Takes s h 23 → ts.length = 24 →
      (∀ p, ts.zipIdx.find? (fun p => decide (4 < p.1)) = some p →
        exec (.loadRota h ts) s = .next (s.answered h 23 .bad none (.words [2 + p.2])))
      ∧ ((∀ v, v ∈ ts → v ≤ 4) → s.mem.sweep = false →
        let copy : List Turn := ts.map fun v => ⟨v, false⟩
        exec (.loadRota h ts) s = .next (({ s with fill := (if s.fill.running
            then { s.fill with pend := copy, pendFlag := true }
            else { s.fill with pend := copy, work := copy, pendFlag := false }) } : State).answered h 23 .done none (.words []))))
    ∧ (∀ (s : State) (h : AskHead), Takes s h 24 →
      (s.fill.running = true ∨ 1 < s.countedInlets.length →
        exec (.startRota h) s = .next (s.answered h 24 .badState none (.words [])))
      ∧ (s.fill.running = false → s.countedInlets.length ≤ 1 →
        let u : State := { s with
          fill := { s.fill with running := true, turn := 0, turnDue := some (s.elapsed + 60 * s.yardNow.turnPeriod),
                                filling := s.countedInlets.head?, selDue := false, unplaced := false }
          flags := setFlag s.flags 7 false }
        (s.runState ≠ .run → exec (.startRota h) s = .next (u.answered h 24 .done none (.words [])))
        ∧ (s.runState = .run → ∃ t, exec (.startRota h) s = .next t ∧ t.fill.running = true ∧ t.fill.turn = 0
          ∧ t.fill.turnDue = u.fill.turnDue ∧ SameMoment s t ∧ SameRecords s t ∧ SameSamples s t ∧ Answers t h 24 .done none (.words []))))
    ∧ (∀ (s : State) (h : Nat) (x : Holder), s.holder h = some x →
      (s.eligible h = true ↔ x.tab.inService = true ∧ x.rt.fillBar = false
        ∧ (x.rt.state = .grounded ∨ x.rt.state = .low ∨ x.rt.state = .working ∨ x.rt.state = .cup))
      ∧ (s.mayContinue h = true ↔ x.tab.inService = true ∧ x.rt.fillBar = false
        ∧ (s.valveState x.tab.inlet = some .opened ∨ s.valveState x.tab.inlet = some .opening)
        ∧ (x.rt.state = .grounded ∨ x.rt.state = .low ∨ x.rt.state = .working ∨ x.rt.state = .cup ∨ x.rt.state = .high
          ∨ (x.rt.state = .blind ∧ x.rt.blindShutDue = false))))
    ∧ (∀ s : State, s.fill.work.length = 24 →
      (∀ i k t, i < 24 → s.fill.work[(s.fill.turn + i) % 24]? = some t → turnHolder t = k → s.eligible k = true →
        (∀ j u, j < i → s.fill.work[(s.fill.turn + j) % 24]? = some u → s.eligible (turnHolder u) = false) → s.found = some k)
      ∧ ((∀ t, t ∈ s.fill.work → s.eligible (turnHolder t) = false) →
        s.found = s.fill.filling.bind fun k => if s.mayContinue k then some k else none))
    ∧ (∀ s : State, (s.fill.running = false ∨ s.runState ≠ .run ∨ s.fill.chg ≠ none → s.fillSelect = s)
      ∧ (s.fill.running = true → s.runState = .run → s.fill.chg = none →
        (s.found = none →
          let t := if s.fill.unplaced then s else s.notify .makeUnplaced (match s.fill.filling with
            | some k => .holder k
            | none => .none) .absent
          s.fillSelect = { t with
            fill := { s.fill with
              unplaced := true, selDue := false
              filling := s.fill.filling.bind fun k =>
                if s.inletState k = some .opened ∨ s.inletState k = some .opening then some k else none }
            flags := s.flags ||| 0x80#8 })
        ∧ (∀ k, s.found = some k →
          let u : State := { s with fill := { s.fill with unplaced := false, selDue := false }, flags := s.flags &&& 0x7F#8 }
          let cup := fun (n : Nat) => (s.holder n).isSome && s.holderState n == .cup
          (s.fill.filling = some k → s.fillSelect = u)
          ∧ (s.fill.filling ≠ some k → s.fillSelect = (({ u with fill := { u.fill with chg := some ⟨s.fill.filling, k, .openingNew, false,
              if (s.fill.filling.any cup || cup k) then some (s.elapsed + s.yardNow.park) else none, false⟩ } } : State).notify
                .fillChangeover (.holder k) (.one ((s.fill.filling.getD 0 : Nat) : Int))).hand [.fillTest]))))
    ∧ (∀ (s : State) (c : FillChange) (x : Holder), s.fill.chg = some c → s.holder c.new = some x →
      let v := x.tab.inlet
      let ready := (c.waived = true ∨ (∃ t, c.deferral = some t ∧ t ≤ s.elapsed) ∨ (s.inCup c.new = false ∧ ∀ k, c.old = some k → s.inCup k = false))
        ∧ (∀ p, p ∈ s.holders → c.old ≠ some p.1 → c.new ≠ p.1 → s.inletCounts p.1 = false) ∧ s.valveFree v = true
      (c.phase = .openingNew → s.valveState v ≠ some .opened → c.openClaimed = false → s.runState ≠ .standby → s.eligible c.new = true → ready →
        s.fillTest = ({ s with fill := { s.fill with chg := some { c with openClaimed := true, deferral := none } } } : State).hand
          [.claim (.valve v) .opn 0 .fill none])
      ∧ (c.phase = .openingNew → s.valveState v ≠ some .opened → (c.openClaimed = true ∨ s.runState = .standby ∨ s.eligible c.new = false ∨ ¬ ready) →
        s.fillTest = s)
      ∧ (c.phase = .shuttingOld → s.fillTest = s)
      ∧ (c.phase = .openingNew → s.valveState v = some .opened →
        let t : State := { s with fill := { s.fill with filling := some c.new, chg := some { c with phase := .shuttingOld, deferral := none } } }
        (∀ k y, c.old = some k → s.holder k = some y →
          let st := s.valveState y.tab.inlet
          (st = some .shutting → s.fillTest = t)
          ∧ ((st = some .shut ∨ st = some .stuck ∨ st = some .unknown) → s.fillTest = t.endFill)
          ∧ ((st = some .opened ∨ st = some .opening ∨ st = some .halted) → s.fillTest =
            if s.runState = .standby then t else t.hand [.claim (.valve y.tab.inlet) .shut 0 .fill none]))
        ∧ (c.old = none → s.fillTest = t.endFill))
      ∧ (c.phase = .openingNew → s.eligible c.new = false → s.runState ≠ .standby →
        s.newHolderCheck c.new = ({ s with fill := { s.fill with chg := none } } : State).hand
          ((if c.openClaimed = true ∧ s.valveState v ≠ some .shut ∧ s.valveState v ≠ some .shutting
              then [.claim (.valve v) .shut 0 .fill none] else []) ++ if s.runState = .run then [.fillSelect] else [])))
    ∧ (∀ s : State, let t := ({ s with fill := { s.fill with chg := none } } : State).notify .fillDone (match s.fill.filling with
        | some k => .holder k
        | none => .none) .absent
      s.endFill = if s.runState = .run ∧ s.fill.running = true ∧ (s.fill.selDue = true ∨ ∀ k, s.fill.filling = some k → s.mayContinue k = false)
        then t.hand [.fillSelect] else t)
    ∧ ∀ (s : State) (c : FillChange), let t := ({ s with fill := { s.fill with chg := none } } : State).notify .fillFailed (.holder c.new) .absent
      (∀ k, c.old = some k → s.mayContinue k = true → s.fillFailed c = t)
      ∧ ((∀ k, c.old = some k → s.mayContinue k = false) → s.fillFailed c = if s.runState = .run then t.makeUnplaced else t)

/-- STOP ROTA stops the rota and its timer, drops the changeover, the filling holder, make unplaced with yard flag 7, and
selection due; the turn index, both copies, the pending flag and everything else stand. -/
def Obligations.StopRotaStopsTheRota : Prop :=
  ∀ (s : State) (h : AskHead), Takes s h 25 →
    exec (.stopRota h) s = .next (({ s with
      fill := { s.fill with running := false, turnDue := none, chg := none, filling := none, unplaced := false, selDue := false }
      flags := s.flags &&& 0x7F#8 } : State).answered h 25 .done none (.words []))

/-- SET DRAW MODE, SET POOL MODE and SET DISTRICT MODE write the mode; draw MANUAL ends the changeover and empties the drawing
set; FREE BOOSTER frees a FAILED booster with a FREE slot. The modes' words: the model's choice (log entry 11). In draw AUTO an
evaluation, made in RUN outside a changeover, compares the drawing set with the target of the draw list; a changeover opens the
outlets of the entering holders, then shuts those of the leaving ones, and ends with its notice. A LOW holder counts for the
target whatever its draw bar: the model's choice (log entry 100). -/
def Obligations.ModesAreSetAndBoostersFreed : Prop :=
  (∀ (s : State) (h : AskHead), Takes s h 26 →
      (s.mem.sweep = false → exec (.setDrawMode h 1) s = .next (({ s with draw := { s.draw with
        mode := .manual, modeDamaged := false, chg := none, set := [], evalDue := false } } : State).answered h 26 .done none (.words [])))
      ∧ (∃ t, exec (.setDrawMode h 0) s = .next t
        ∧ SameRecords { s with draw := { s.draw with mode := .auto, modeDamaged := false } } t ∧ t.runState = s.runState
        ∧ SameSamples s t ∧ Answers t h 26 .done none (.words []))
      ∧ ∀ m, 1 < m → exec (.setDrawMode h m) s = .next (s.answered h 26 .bad none (.words [2])))
    ∧ (∀ (s : State) (h : AskHead), Takes s h 29 →
      (∀ m, m ≤ 1 → ∃ t, exec (.setPoolMode h m) s = .next t
        ∧ SameRecords { s with pool := { s.pool with mode := if m = 0 then .auto else .manual, modeDamaged := false } } t
        ∧ t.runState = s.runState ∧ SameSamples s t ∧ Answers t h 29 .done none (.words []))
      ∧ ∀ m, 1 < m → exec (.setPoolMode h m) s = .next (s.answered h 29 .bad none (.words [2])))
    ∧ (∀ (s : State) (h : AskHead) (n m : Nat), Takes s h 27 →
      (∀ x, 1 ≤ n → n ≤ 8 → m ≤ 1 → s.district n = some x → s.mem.sweep = false → exec (.setDistrictMode h n m) s = .next
        ((s.setDistrict n { x with tab := { x.tab with auto := decide (m = 0) } }).answered h 27 .done none (.words [])))
      ∧ (n = 0 ∨ 8 < n → exec (.setDistrictMode h n m) s = .next (s.answered h 27 .bad none (.words [2]))))
    ∧ (∀ (s : State) (h : AskHead) (n : Nat), Takes s h 30 →
      (∀ x, 1 ≤ n → n ≤ 3 → s.booster n = some x → x.state = .failed → x.slot.state = .free → s.poolMode = .manual ∨ s.runState ≠ .run →
        exec (.freeBooster h n) s = .next ((s.setBooster n { x with state := .free, cause := none, sample := none }).answered
          h 30 .done none (.words [])))
      ∧ (∀ x, 1 ≤ n → n ≤ 3 → s.booster n = some x → x.state = .failed → x.slot.state = .free →
        ∃ t, exec (.freeBooster h n) s = .next t ∧ SameMoment s t ∧ SameRecords s t ∧ SameSamples s t ∧ Answers t h 30 .done none (.words []))
      ∧ ∀ x, 1 ≤ n → n ≤ 3 → s.booster n = some x → x.state ≠ .failed ∨ x.slot.state ≠ .free →
        exec (.freeBooster h n) s = .next (s.answered h 30 .badState none (.words [])))
    ∧ (∀ (s : State) (h : Nat), (s.holder h = none → s.drawEligible h = false) ∧ ∀ x, s.holder h = some x →
      (s.drawEligible h = true ↔ x.tab.inService = true ∧ x.rt.drawBar = false
        ∧ (x.rt.state = .working ∨ x.rt.state = .cup ∨ x.rt.state = .high ∨ x.rt.state = .top)))
    ∧ (∀ s : State,
      let list := s.drawRec.list
      let first := (list.filter s.drawEligible).take s.drawRec.count
      let low := list.filter fun k => s.draw.set.contains k && s.holderState k == .low
      let target := first ++ low.take (s.drawRec.count - first.length)
      let entering := target.filter fun k => !s.draw.set.contains k
      let leaving := s.draw.set.filter fun k => !target.contains k
      s.drawTarget = target
      ∧ (s.drawMode = .manual → s.drawCall = s)
      ∧ (s.drawMode = .auto → s.runState ≠ .run ∨ s.draw.chg ≠ none → s.drawCall = { s with draw := { s.draw with evalDue := true } })
      ∧ (s.drawMode = .auto → s.runState = .run → s.draw.chg = none → entering = [] → leaving = [] →
        s.drawCall = { s with draw := { s.draw with evalDue := false } })
      ∧ (s.drawMode = .auto → s.runState = .run → s.draw.chg = none → entering ≠ [] ∨ leaving ≠ [] → ∃ es ls,
        s.drawCall = ({ s with draw := { s.draw with evalDue := false, chg := some ⟨es, ls, false, [], []⟩ } } : State).hand [.drawStep]
        ∧ (∀ k st, (k, st) ∈ es ↔ k ∈ entering ∧ st = .waiting) ∧ ∀ k, k ∈ ls ↔ k ∈ leaving))
    ∧ ∀ (s : State) (c : DrawChange), s.draw.chg = some c →
      let shutWith (k v : Nat) (made : Prop) : Prop :=
        let t : State := { s with draw := { s.draw with chg := some { c with owed := c.owed.filter (· != k) } } }
        (made → s.drawShut k = t.hand [.claim (.valve v) .shut 0 .draw none]) ∧ (¬ made → s.drawShut k = t.hand [])
      (c.closing = false → s.runState ≠ .standby → ∃ t, s.drawStep = t
        ∧ t = { s with draw := t.draw, handoffs := t.handoffs }
        ∧ (∀ k, k ∈ t.draw.set ↔ k ∈ s.draw.set ∨ (k, .opened) ∈ c.entering ∨ ((k, .waiting) ∈ c.entering ∧ s.outletState k = some .opened))
        ∧ t.draw.chg = some { c with
          entering := c.entering.map fun e => (e.1, if e.2 = .waiting
            then (if s.outletState e.1 = some .opened then .opened else if s.drawEligible e.1 then .waiting else .failed) else e.2)
          owed := c.owed ++ (c.entering.filter fun e =>
            e.2 == .waiting && s.outletState e.1 != some .opened && !s.drawEligible e.1).map (·.1) }
        ∧ (∀ k, k ∈ c.owed ∨ ((k, .waiting) ∈ c.entering ∧ s.outletState k ≠ some .opened ∧ s.drawEligible k = false) →
          Handoff.drawShut k ∈ t.handoffs)
        ∧ ∀ k, (k, .waiting) ∈ c.entering → s.outletState k ≠ some .opened → s.drawEligible k = true → Handoff.drawOpen k ∈ t.handoffs)
      ∧ (∀ k v, c.closing = false → s.runState ≠ .standby → s.outletOf k = some v →
        ((k, .waiting) ∈ c.entering → s.outletState k ≠ some .opened → s.drawEligible k = true → s.valveFree v = true →
          s.drawOpen k = s.hand [.claim (.valve v) .opn 0 .draw none])
        ∧ (((k, .waiting) ∉ c.entering ∨ s.outletState k = some .opened ∨ s.drawEligible k = false ∨ s.valveFree v = false) →
          s.drawOpen k = s))
      ∧ (∀ k v, s.runState ≠ .standby → k ∈ c.owed → s.outletOf k = some v →
        (c.closing = false → shutWith k v (s.valveHoldsOpen v = true ∨ s.valveState v = some .opening))
        ∧ (c.closing = true → shutWith k v True))
      ∧ (∀ k, k ∉ c.owed → s.drawShut k = s)
      ∧ (c.closing = false → c.owed = [] → (∀ e, e ∈ c.entering → e.2 ≠ .waiting) →
        let rest := s.draw.set.filter fun k => !c.leaving.contains k
        let shut := c.leaving.filter fun k => (s.outletOf k).isSome && !isShutOrShutting (s.outletState k)
        ((∃ e, e ∈ c.entering ∧ e.2 = .failed) ∨ rest = [] → s.drawFinish = s.endDraw c)
        ∧ ((∀ e, e ∈ c.entering → e.2 ≠ .failed) → rest ≠ [] →
          let t : State := { s with draw := { s.draw with
            set := rest
            chg := some { c with closing := true, claimed := shut, owed := shut } } }
          s.drawFinish = if shut = [] then t.endDraw c else t.hand (shut.map .drawShut ++ [.drawStep])))
      ∧ (c.closing = true → c.owed = [] → (∀ k, k ∈ c.claimed →
          s.outletState k = some .shut ∨ s.outletState k = some .stuck ∨ s.outletState k = some .unknown) →
        s.drawStep = s.endDraw c)
      ∧ (c.closing = true → c.owed ≠ [] → s.drawStep = s)
      ∧ (c.closing = true → (∃ k, k ∈ c.claimed ∧ (s.outletState k = some .opening ∨ s.outletState k = some .opened
        ∨ s.outletState k = some .shutting ∨ s.outletState k = some .halted)) → s.drawStep = s)
      ∧ (s.endDraw c).draw.chg = none
      ∧ (s.endDraw c).desk = (s.notify .drawDone .none (.one (((c.entering.filter fun e => e.2 == .failed).length : Nat) : Int))).desk

/-- READ ACCOUNT gives a record of the ring, or the open account in its form, in parts of two district entries; every answer
carries the number of records held and the oldest interval number. The word of OPEN, and the oldest number 0 of an empty ring, are
the model's choices (log entries 11 and 102). -/
def Obligations.ReadAccountGivesARecord : Prop :=
  ∀ (s : State) (h : AskHead) (pick part : Nat), Takes s h 32 →
    let tail := s.acct.ring.length :: two ((s.acct.ring.head?.map (·.number)).getD 0)
    (127 < pick → pick ≠ 65535 → exec (.readAccount h pick part) s = .next (s.answered h 32 .bad none (.words (2 :: tail))))
    ∧ (pick ≤ 127 ∨ pick = 65535 → 4 < part → exec (.readAccount h pick part) s = .next (s.answered h 32 .bad none (.words (3 :: tail))))
    ∧ (part ≤ 4 → exec (.readAccount h 65535 part) s = .next (s.answered h 32 .done none
        (.words (accountPart (s.recordOf none none) part ++ tail))))
    ∧ (pick ≤ 127 → part ≤ 4 → s.acct.ring = [] → exec (.readAccount h pick part) s = .next (s.answered h 32 .empty none (.words tail)))
    ∧ (pick ≤ 127 → part ≤ 4 → s.acct.ring ≠ [] → s.acct.ring.length ≤ pick →
      exec (.readAccount h pick part) s = .next (s.answered h 32 .notFound none (.words tail)))
    ∧ ∀ r, pick ≤ 127 → part ≤ 4 → s.acct.ring[pick]? = some r →
      exec (.readAccount h pick part) s = .next (s.answered h 32 .done none (.words (accountPart r part ++ tail)))

/-- RELEASE ACCOUNT removes the oldest record when it is the one named, and is EMPTY or STALE otherwise, with nothing removed. The
two words of STALE's number: the model's choice (log entry 11). -/
def Obligations.ReleaseAccountTakesTheOldestOnly : Prop :=
  ∀ (s : State) (h : AskHead) (number : Nat), Takes s h 33 →
    (s.acct.ring = [] → exec (.releaseAccount h number) s = .next (s.answered h 33 .empty none (.words [])))
    ∧ (∀ r rest, s.acct.ring = r :: rest → r.number = number →
      exec (.releaseAccount h number) s = .next (({ s with acct := { s.acct with ring := rest } } : State).answered h 33 .done none
        (.words [rest.length])))
    ∧ (∀ r rest, s.acct.ring = r :: rest → r.number ≠ number →
      exec (.releaseAccount h number) s = .next (s.answered h 33 .stale none (.words (two r.number))))

/-! ### Desk telegrams to the field -/

/-- A desk POLL goes to the forced lines, to the station's line, or, UNLOCATED, to every line as a flood where a reply is
expected; a full Q1 refuses it BUSY and counts a desk drop on each full line. -/
def Obligations.DeskPollIsForwarded : Prop :=
  ∀ (s : State) (t : DeskTelegram), Serves s → t.order = false → 1 ≤ t.dest → t.dest ≤ 199 →
    (∀ l, forcedLines t = [] → s.stationLine t.dest = some l → (s.line l).q1.length < 8 → (s.line l).mode ≠ .idle →
      exec (.deskPoll t) s = .next (s.setLine l { s.line l with q1 := (s.line l).q1 ++ [⟨t, none⟩] }))
    ∧ (∀ l, forcedLines t = [] → s.stationLine t.dest = some l → (s.line l).mode = .idle → (s.line l).selected = none →
      (s.line l).q0 = [] → (s.line l).q1 = [] → (s.line l).q2 = [] →
      ∃ u, exec (.deskPoll t) s = .next u ∧ (u.line l).selected = some (.copy ⟨t, none⟩) ∧ (u.line l).q1 = []
        ∧ (∀ k, k ≠ l → u.line k = s.line k) ∧ SameMoment s u ∧ SameRecords s u ∧ SameSamples s u)
    ∧ (∀ l, forcedLines t = [] → s.stationLine t.dest = some l → 8 ≤ (s.line l).q1.length →
      exec (.deskPoll t) s = .next ((s.setLine l { s.line l with counters := { (s.line l).counters with
        deskDrops := min 65535 ((s.line l).counters.deskDrops + 1) } }).answeredRelayed t 17 .busy none))
    ∧ (∀ l, forcedLines t = [l] → (s.line l).q1.length < 8 → (s.line l).mode ≠ .idle →
      exec (.deskPoll t) s = .next (s.setLine l { s.line l with q1 := (s.line l).q1 ++ [⟨t, none⟩] }))
    ∧ (forcedLines t = [] → s.stationLine t.dest = none → t.replyExpected = true → (∀ l, (s.line l).q1.length < 8) →
      (∀ l, (s.line l).mode ≠ .idle) → ∃ u, exec (.deskPoll t) s = .next u
        ∧ (∀ l, u.line l = { s.line l with q1 := (s.line l).q1 ++ [⟨t, some s.relay.nextFlood⟩] })
        ∧ u.relay = { s.relay with
            floods := s.relay.floods ++ [⟨s.relay.nextFlood, t.dest, t.tag, [.f1, .f2, .f3], false⟩], nextFlood := s.relay.nextFlood + 1 }
        ∧ u.desk = s.desk ∧ SameMoment s u ∧ SameRecords s u ∧ SameSamples s u)

/-- A desk ORDER to a bound station: a code its role does not admit, or a START to no district 1-8, is BAD with the station alone
(the model's choice, log entry 46; so is a missing word, log entry 59); the desk gate refuses an OPEN or HALT of a valve with its
reason, AUTO refuses the steps of a governor and the orders of a booster; an order that passes queues in a FREE slot on the
station's line, or is parked while the valve's holder is in CUP; a START takes its district, a STOP gives it up. The gate goes by the
rows of Table 2.7: the state of the holder that names the valve, then the job that owns its side, then the hand at the valve. A SHUT
passes, claims the slot and sets the bar of the side that a job owns. A claim on a valve's slot is decided by Table 2.5 (a shut claim
while a follow-up waits: the model's choice, log entry 15). A SHUT that reaches the valve answers every order parked for it SUPERSEDED,
in the order of the holders (the model's choice, log entry 121), where it joins a SHUT after its own DONE (that order of the two: the
model's choice, log entry 110). A desk STOP of a booster STARTING or RUNNING raises no BOOSTER STOPPING and makes its stop due absent
(the model's choices, log entries 101 and 123). -/
def Obligations.BoundOrderPassesTheGate : Prop :=
  (∀ (b : Binding) (c : OrderCode), orderAdmitted b c = true ↔ (∃ v, b = .valve v ∧ (c = .opn ∨ c = .shut ∨ c = .halt))
      ∨ (∃ d, b = .governor d ∧ (c = .raise ∨ c = .lower)) ∨ ∃ n, b = .booster n ∧ (c = .start ∨ c = .stop))
    ∧ (∀ (s : State) (v : Nat), tblWf s.holders = true →
      (s.inletHolder v = none ↔ ∀ h x, s.holder h = some x → x.tab.inlet ≠ v)
      ∧ (s.outletHolder v = none ↔ ∀ h x, s.holder h = some x → x.tab.outlet ≠ v)
      ∧ (∀ h, s.inletHolder v = some h → ∃ x, s.holder h = some x ∧ x.tab.inlet = v)
      ∧ ∀ h, s.outletHolder v = some h → ∃ x, s.holder h = some x ∧ x.tab.outlet = v)
    ∧ (∀ (s : State) (v : Nat), (s.stationLine (s.valveStation v) = none → s.gate v = some .unknownStation)
      ∧ ∀ l, s.stationLine (s.valveStation v) = some l →
        let byHand : Option Reason := match s.valve v with
          | some y => if y.localHand = true then some .localHand else none
          | none => none
        (s.inletHolder v = none → s.outletHolder v = none → s.gate v = byHand)
        ∧ (∀ h x, s.inletHolder v = some h → s.holder h = some x →
          (x.rt.state = .top → s.gate v = some .top) ∧ (x.rt.state = .fault → s.gate v = some .fault)
          ∧ (x.rt.state = .out → s.gate v = some .out) ∧ (x.rt.state = .blind → s.gate v = some .blind)
          ∧ (x.rt.state ≠ .top → x.rt.state ≠ .fault → x.rt.state ≠ .out → x.rt.state ≠ .blind →
            s.gate v = if s.fill.running = true then some .rotaOwns else byHand))
        ∧ ∀ h x, s.inletHolder v = none → s.outletHolder v = some h → s.holder h = some x →
          (x.rt.state = .grounded → s.gate v = some .grounded) ∧ (x.rt.state = .fault → s.gate v = some .fault)
          ∧ (x.rt.state = .out → s.gate v = some .out) ∧ (x.rt.state = .blind → s.gate v = some .blind)
          ∧ (x.rt.state ≠ .grounded → x.rt.state ≠ .fault → x.rt.state ≠ .out → x.rt.state ≠ .blind →
            s.gate v = if s.drawMode = .auto then some .drawOwns else byHand))
    ∧ (∀ (s : State) (v : Nat) (x : Valve) (o : Origin) (tag : Option DeskRef), s.valve v = some x →
      let sl := x.slot
      let entry : Q0Entry := .slot (.valve v) (s.valveStation v)
      let answered := fun (r : Result) => if o = .desk then (match tag with
        | some g => s.answerRelayed g.num 34 r none g.dest
        | none => s) else s
      let fresh : Slot := ⟨.queued, .shut, 0, o, tag, s.elapsed, none, false, none, false⟩
      (∀ c a l, sl.state = .free → s.stationLine (s.valveStation v) = some l → (s.line l).mode ≠ .idle →
        let t := (s.setValve v { x with slot := { fresh with code := c, arg := a } }).setLine l { s.line l with q0 := (s.line l).q0 ++ [entry] }
        s.claim (.valve v) c a o tag = if c = .shut then t.parkedSuperseded v else t)
      ∧ (∀ c a, sl.state ≠ .free → c = .opn ∨ c = .halt → s.claim (.valve v) c a o tag = answered .busy)
      ∧ (sl.state ≠ .free → sl.code = .shut → s.claim (.valve v) .shut 0 o tag = (answered .done).parkedSuperseded v)
      ∧ (sl.code = .opn ∨ sl.code = .halt →
        (sl.state = .queued → s.claim (.valve v) .shut 0 o tag = ((s.setValve v { x with slot := fresh }).hand
          [.outcome (.valve v) sl.code sl.origin sl.tag .superseded]).parkedSuperseded v)
        ∧ (sl.state = .sent → s.claim (.valve v) .shut 0 o tag =
          ((s.setValve v { x with slot := { sl with followUp := some ⟨o, tag⟩ } }).hand (match sl.followUp with
            | some f => [.outcome (.valve v) .shut f.origin f.tag .superseded]
            | none => [])).parkedSuperseded v)
        ∧ ∀ l, sl.state = .travel → s.stationLine (s.valveStation v) = some l → (s.line l).mode ≠ .idle →
          s.claim (.valve v) .shut 0 o tag = (((s.setValve v { x with state := .shutting, slot := { fresh with reversal := true } }).setLine l
            { s.line l with q0 := entry :: (s.line l).q0 }).hand
              [.outcome (.valve v) sl.code sl.origin sl.tag .superseded, .valveTold v false (VState.shutting != x.state)]).parkedSuperseded v))
    ∧ ∀ (s : State) (t : DeskTelegram), Serves s → t.order = true → 1 ≤ t.dest → t.dest ≤ 199 →
    let mine : DeskRef := ⟨t.tag, t.learnInhibit, t.dest, t.body⟩
    let queued := fun (c : OrderCode) => (⟨.queued, c, 0, .desk, some mine, s.elapsed, none, false, none, false⟩ : Slot)
    (∀ b, s.bindingOf t.dest = some b → orderOfNum (orderWord t) = none →
      exec (.deskOrderBound t) s = .next (s.answeredRelayed t 34 .bad none))
    ∧ (∀ b c, s.bindingOf t.dest = some b → orderOfNum (orderWord t) = some c → orderAdmitted b c = false →
      exec (.deskOrderBound t) s = .next (s.answeredRelayed t 34 .bad none))
    ∧ (∀ v c, s.bindingOf t.dest = some (.valve v) → orderOfNum (orderWord t) = some c → c = .opn ∨ c = .halt →
      (∀ r, s.gate v = some r → exec (.deskOrderBound t) s = .next (s.answeredRelayed t 34 .refused (some r)))
      ∧ (∀ l sl, s.gate v = none → (s.valveHolder v = none ∨ ∃ k x, s.valveHolder v = some k ∧ s.holder k = some x ∧ x.rt.state ≠ .cup) →
        s.slot (.valve v) = some sl → sl.state = .free → s.stationLine (s.valveStation v) = some l → (s.line l).mode ≠ .idle →
        exec (.deskOrderBound t) s = .next ((s.setSlot (.valve v) (queued c)).setLine l
          { s.line l with q0 := (s.line l).q0 ++ [.slot (.valve v) (s.valveStation v)] }))
      ∧ (∀ k x, s.gate v = none → s.valveHolder v = some k → s.holder k = some x → x.rt.state = .cup → x.rt.park = none →
        exec (.deskOrderBound t) s = .next (s.setHolder k { x with rt := { x.rt with
          park := some ⟨v, c, 0, mine, s.elapsed + s.yardNow.park⟩ } }))
      ∧ (∀ k x p, s.gate v = none → s.valveHolder v = some k → s.holder k = some x → x.rt.state = .cup → x.rt.park = some p →
        exec (.deskOrderBound t) s = .next (s.answeredRelayed t 34 .busy none)))
    ∧ (∀ v, s.bindingOf t.dest = some (.valve v) → orderOfNum (orderWord t) = some .shut → s.stationLine t.dest = none →
      exec (.deskOrderBound t) s = .next (s.answeredRelayed t 34 .refused (some .unknownStation)))
    ∧ (∀ v lt, s.bindingOf t.dest = some (.valve v) → orderOfNum (orderWord t) = some .shut → s.stationLine t.dest = some lt →
      let claim : Handoff := .claim (.valve v) .shut 0 .desk (some mine)
      let noBar := (∀ h, s.inletHolder v = some h → s.fill.running = false)
        ∧ ∀ h, s.inletHolder v = none → s.outletHolder v = some h → s.drawMode ≠ .auto
      (∀ h x, s.inletHolder v = some h → s.holder h = some x → s.fill.running = true →
        exec (.deskOrderBound t) s = .next (settle Config.handoffBound ((s.setHolder h { x with rt := { x.rt with fillBar := true } }).hand
          (claim :: if x.rt.fillBar = true then [] else [.fillBar h true]))))
      ∧ (∀ h x, s.inletHolder v = none → s.outletHolder v = some h → s.holder h = some x → s.drawMode = .auto →
        exec (.deskOrderBound t) s = .next (settle Config.handoffBound ((s.setHolder h { x with rt := { x.rt with drawBar := true } }).hand
          (claim :: if x.rt.drawBar = true then [] else [.drawBar h true]))))
      ∧ (noBar → exec (.deskOrderBound t) s = .next (settle Config.handoffBound (s.hand [claim])))
      ∧ ∀ l sl, noBar → s.slot (.valve v) = some sl → sl.state = .free → s.stationLine (s.valveStation v) = some l → (s.line l).mode ≠ .idle →
        exec (.deskOrderBound t) s = .next (((s.setSlot (.valve v) (queued .shut)).setLine l
          { s.line l with q0 := (s.line l).q0 ++ [.slot (.valve v) (s.valveStation v)] }).parkedSuperseded v))
    ∧ (∀ d x c, s.bindingOf t.dest = some (.governor d) → orderOfNum (orderWord t) = some c → c = .raise ∨ c = .lower → s.district d = some x →
      (x.tab.auto = true → exec (.deskOrderBound t) s = .next (s.answeredRelayed t 34 .refused (some .districtAuto)))
      ∧ (∀ l, x.tab.auto = false → x.slot.state = .free → s.stationLine x.tab.governor = some l → (s.line l).mode ≠ .idle →
        exec (.deskOrderBound t) s = .next ((s.setSlot (.governor d) (queued c)).setLine l
          { s.line l with q0 := (s.line l).q0 ++ [.slot (.governor d) x.tab.governor] })))
    ∧ (∀ b x, s.bindingOf t.dest = some (.booster b) → orderOfNum (orderWord t) = some .stop → s.booster b = some x →
      (s.poolMode = .auto → exec (.deskOrderBound t) s = .next (s.answeredRelayed t 34 .refused (some .poolOwns)))
      ∧ (∀ l, s.poolMode = .manual → holdsDistrict x = false → x.slot.state = .free → s.stationLine x.tab.station = some l → (s.line l).mode ≠ .idle →
        exec (.deskOrderBound t) s = .next ((s.setSlot (.booster b) (queued .stop)).setLine l
          { s.line l with q0 := (s.line l).q0 ++ [.slot (.booster b) x.tab.station] }))
      ∧ (∀ d, s.poolMode = .manual → x.state = .starting ∨ x.state = .running → x.district = some d →
        exec (.deskOrderBound t) s = .next (settle Config.handoffBound (((s.setBooster b { x with
          state := .stopping, district := none, releaseDue := none, stopDue := none }).releaseDistrict d).hand
            [.claim (.booster b) .stop 0 .desk (some mine)]))))
    ∧ ∀ b x, s.bindingOf t.dest = some (.booster b) → orderOfNum (orderWord t) = some .start → s.booster b = some x →
      (argWord t = 0 ∨ 8 < argWord t → exec (.deskOrderBound t) s = .next (s.answeredRelayed t 34 .bad none))
      ∧ (1 ≤ argWord t → argWord t ≤ 8 → s.poolMode = .auto →
        exec (.deskOrderBound t) s = .next (s.answeredRelayed t 34 .refused (some .poolOwns)))
      ∧ (1 ≤ argWord t → argWord t ≤ 8 → s.poolMode = .manual → x.state ≠ .free ∨ x.slot.state ≠ .free →
        exec (.deskOrderBound t) s = .next (s.answeredRelayed t 34 .badState none))
      ∧ (1 ≤ argWord t → argWord t ≤ 8 → s.poolMode = .manual → x.state = .free → x.slot.state = .free →
        (s.district (argWord t) = none ∨ (∃ y, s.district (argWord t) = some y ∧ y.rt.state = .out) ∨ s.heldBy (argWord t) ≠ none) →
        exec (.deskOrderBound t) s = .next (s.answeredRelayed t 34 .conflict none))
      ∧ ∀ y, 1 ≤ argWord t → argWord t ≤ 8 → s.poolMode = .manual → x.state = .free → x.slot.state = .free →
        s.district (argWord t) = some y → y.rt.state ≠ .out → s.heldBy (argWord t) = none →
        exec (.deskOrderBound t) s = .next (settle Config.handoffBound (((({ s with
            pool := { s.pool with queue := s.pool.queue.filter (· != argWord t) } } : State).setBooster b { x with
              state := .starting, district := some (argWord t) }).setDistrict (argWord t) { y with rt := { y.rt with
                held := b, boosted := false, lift := 0 } }).hand
            [.claim (.booster b) .start (argWord t) .desk (some mine), .headEval (argWord t)]))

/-- A desk ORDER to a station not bound takes one of four open orders and queues on its line; a desk telegram to a group goes to
the lines of its stations, and one to the all-call to every line; BUSY where a queue is full; an order code 1-7 to a group, and a
fifth open order, are refused. A code out of range is BAD with the station alone (the model's choice, log entry 46), and so is an ORDER
with no code word (log entry 59). -/
def Obligations.UnboundAndGroupTelegramsAreForwarded : Prop :=
  (∀ (s : State) (t : DeskTelegram), Serves s → t.order = true → 1 ≤ t.dest → t.dest ≤ 199 → s.bindingOf t.dest = none →
      (orderWord t = 0 ∨ 15 < orderWord t → exec (.deskOrderUnbound t) s = .next (s.answeredRelayed t 34 .bad none))
      ∧ (1 ≤ orderWord t → orderWord t ≤ 15 → forcedLines t = [] → s.stationLine t.dest = none →
        exec (.deskOrderUnbound t) s = .next (s.answeredRelayed t 34 .refused (some .unknownStation)))
      ∧ (∀ l, 1 ≤ orderWord t → orderWord t ≤ 15 → forcedLines t = [] → s.stationLine t.dest = some l → 4 ≤ s.relay.allowance →
        exec (.deskOrderUnbound t) s = .next (s.answeredRelayed t 34 .refused (some .allowance)))
      ∧ ∀ l, 1 ≤ orderWord t → orderWord t ≤ 15 → forcedLines t = [] → s.stationLine t.dest = some l → s.relay.allowance < 4 →
        t.replyExpected = true → (s.line l).mode ≠ .idle →
        exec (.deskOrderUnbound t) s = .next (({ s with relay := { s.relay with allowance := s.relay.allowance + 1 } } : State).setLine l
          { s.line l with q0 := (s.line l).q0 ++ [.desk t] }))
    ∧ (∀ (s : State) (t : DeskTelegram), Serves s → (200 ≤ t.dest ∧ t.dest ≤ 211) ∨ t.dest = 255 →
      (t.order = true → 1 ≤ orderWord t → orderWord t ≤ 7 →
        exec (.deskGroupTelegram t) s = .next (s.answeredRelayed t 34 .refused (some .groupOrder)))
      ∧ (t.order = false → s.groupLines t = [] →
        exec (.deskGroupTelegram t) s = .next (s.answeredRelayed t 17 .refused (some .unknownStation)))
      ∧ (∀ l, t.order = false → s.groupLines t = [l] → 8 ≤ (s.line l).q1.length →
        exec (.deskGroupTelegram t) s = .next ((s.setLine l { s.line l with counters := { (s.line l).counters with
          deskDrops := min 65535 ((s.line l).counters.deskDrops + 1) } }).answeredRelayed t 17 .busy none))
      ∧ (t.order = false ∨ (8 ≤ orderWord t ∧ orderWord t ≤ 15) → s.groupLines t ≠ [] → (∀ l, (s.line l).q1.length < 8) →
        (∀ l, (s.line l).mode ≠ .idle) → ∃ u, exec (.deskGroupTelegram t) s = .next u
          ∧ (∀ l, u.line l = if l ∈ s.groupLines t then { s.line l with q1 := (s.line l).q1 ++ [⟨t, none⟩] } else s.line l)
          ∧ u.relay = s.relay ∧ u.desk = s.desk ∧ SameMoment s u ∧ SameRecords s u ∧ SameSamples s u))
    ∧ ∀ (s : State) (t : DeskTelegram), (∀ l, forcedLines t ≠ [] → (l ∈ s.groupLines t ↔ l ∈ forcedLines t))
      ∧ (∀ l, forcedLines t = [] → t.dest = 255 → l ∈ s.groupLines t)
      ∧ ∀ l, forcedLines t = [] → t.dest ≠ 255 →
        (l ∈ s.groupLines t ↔ ∃ p, p ∈ s.dir ∧ p.2.line = some l ∧ p.2.groups.getLsbD (t.dest - 200) = true)

/-! ### Exchanges -/

/-- An IDLE line selects from Q0 first, else from Q1 and Q2 in turn by their weights. What a line has selected is sent: a POLL of
the part, the order of a slot, which is then SENT (a desk's own with its tag and body), or a telegram of the desk without its
envelope; the end of a transmission that expects a reply opens the exchange under the line's next tag, with the timeout and retries of its
class; a repeat that is due is sent with the repeat flag and one retry less. A telegram selected and not yet sent stands (the model's
choice, log entry 92). -/
def Obligations.SelectedTelegramIsSent : Prop :=
  (∀ (s : State) (l : FLine), Settled s →
    let u := s.line l
    let send := fun (o : Outgoing) (t : Telegram) => s.setLine l { u with
      mode := .sending, selected := none, sending := some (o, t)
      counters := { u.counters with telegramsOut := min 65535 (u.counters.telegramsOut + 1) } }
    let await := fun (o : Outgoing) (t : Telegram) (k : Kind) (cls retries : Nat) (check : Bool) => s.setLine l { u with
      mode := .awaiting, sending := none, tag := (u.tag + 1) % 256
      exch := some ⟨t.dest, t.tag, k, o, t, cls, retries, retries, some (Config.replyTimeout cls), false, .noResponse, check⟩ }
    (u.receiving = true → exec (.fieldSendStart l) s = .next s)
    ∧ (u.receiving = false → u.mode = .idle →
      (∀ p, u.selected = some (.poll p) →
        exec (.fieldSendStart l) s = .next (send (.poll p) ⟨p.station, 0, .poll, true, false, u.tag, none, []⟩))
      ∧ (∀ tg st sl, u.selected = some (.order tg st) → s.slot tg = some sl →
        let own : Nat × List Word := (u.tag, [wordOf (orderCodeNum sl.code), wordOf sl.arg])
        let said : Nat × List Word := if sl.origin = .desk then (match sl.tag with
          | some g => (g.num, g.body)
          | none => own) else own
        exec (.fieldSendStart l) s = .next ((send (.order tg st) ⟨st, 0, .order, true, false, said.1, none, said.2⟩).setSlot tg
          { sl with state := .sent }))
      ∧ (∀ t, u.selected = some (.unbound t) → exec (.fieldSendStart l) s = .next (send (.unbound t) (fieldOfDesk t)))
      ∧ ∀ c, u.selected = some (.copy c) → exec (.fieldSendStart l) s = .next (send (.copy c) (fieldOfDesk c.tel)))
    ∧ (∀ e, u.receiving = false → u.mode = .awaiting → u.exch = some e → e.repeatDue = true →
      exec (.fieldSendStart l) s = .next (s.setLine l { u with
        mode := .sending, sending := some (e.what, { e.sent with rept := true })
        exch := some { e with repeatDue := false, left := e.left - 1 }
        counters := { u.counters with telegramsOut := min 65535 (u.counters.telegramsOut + 1) } }))
    ∧ (∀ o t, u.mode = .sending → u.exch = none → u.sending = some (o, t) → 1 ≤ t.dest → t.dest ≤ 199 → t.replyExpected = true →
      s.watchClass t.dest = none →
      (∀ p, o = .poll p → t.kind = .poll → exec (.fieldSendEnd l) s = .next (await o t .report p.cls p.retries p.asked))
      ∧ (∀ tg st, o = .order tg st → t.kind = .order → exec (.fieldSendEnd l) s = .next (await o t .orderAck 3 2 false))
      ∧ (∀ d, o = .unbound d → t.kind = .order → exec (.fieldSendEnd l) s = .next (await o t .orderAck 3 2 false))
      ∧ ∀ c, o = .copy c →
        (c.tel.order = true → t.kind = .order → exec (.fieldSendEnd l) s = .next (await o t .orderAck 3 2 false))
        ∧ (c.tel.order = false → t.kind = .poll → s.enabledPoll c.tel.dest = none →
          exec (.fieldSendEnd l) s = .next (await o t .report 3 1 false))
        ∧ ∀ n p, c.tel.order = false → t.kind = .poll → s.enabledPoll c.tel.dest = some (n, p) →
          exec (.fieldSendEnd l) s = .next (await o t .report p.tab.cls p.tab.retries false))
    ∧ (∀ c t, u.mode = .sending → u.exch = none → u.sending = some (.copy c, t) → c.tel.order = false →
      t.replyExpected = false ∨ 199 < t.dest → u.selected = none → u.q0 = [] → u.q1 = [] → u.q2 = [] →
      exec (.fieldSendEnd l) s = .next (s.setLine l { u with mode := .idle, sending := none, rate := (lineSet u).rate }))
    ∧ (∀ e o t, u.mode = .sending → u.exch = some e → u.sending = some (o, t) → s.watchClass t.dest = none →
      exec (.fieldSendEnd l) s = .next (s.setLine l { u with
        mode := .awaiting, sending := none, exch := some { e with deadline := some (Config.replyTimeout e.cls) } }))
    ∧ (u.mode ≠ .sending → exec (.fieldSendEnd l) s = .next s))
    ∧ (∀ t : DeskTelegram, fieldOfDesk t =
      ⟨t.dest, 0, if t.order then .order else .poll, t.replyExpected, false, t.tag, none, t.body⟩)
    ∧ ∀ u : LineUnit, (u.mode ≠ .idle ∨ u.selected ≠ none → wakeUnit u = u) ∧ (u.mode = .idle → u.selected = none →
      (∀ e r, u.q0 = e :: r → wakeUnit u = { u with q0 := r, selected := some (match e with
        | .slot tg st => .order tg st
        | .desk t => .unbound t) })
      ∧ (u.q0 = [] → u.q1 = [] → u.q2 = [] → wakeUnit u = u)
      ∧ (∀ c r, u.q0 = [] → u.q1 = c :: r →
        let w := fun (n : Nat) => { u with q1 := r, selected := some (.copy c), owner := .q1, turns := n }
        (u.owner = .q1 → u.turns < (lineSet u).w1 → wakeUnit u = w (u.turns + 1))
        ∧ (u.owner = .q1 → (lineSet u).w1 ≤ u.turns → u.q2 = [] → wakeUnit u = w 1)
        ∧ (u.owner = .q2 → u.q2 = [] ∨ (lineSet u).w2 ≤ u.turns → wakeUnit u = w 1))
      ∧ ∀ p r, u.q0 = [] → u.q2 = p :: r →
        let w := fun (n : Nat) => { u with q2 := r, selected := some (.poll p), owner := .q2, turns := n }
        (u.owner = .q2 → u.turns < (lineSet u).w2 → wakeUnit u = w (u.turns + 1))
        ∧ (u.owner = .q2 → (lineSet u).w2 ≤ u.turns → u.q1 = [] → wakeUnit u = w 1)
        ∧ (u.owner = .q1 → u.q1 = [] ∨ (lineSet u).w1 ≤ u.turns → wakeUnit u = w 1))

/-- An attempt of an exchange fails at its deadline (a deadline that is set has come: log entries 5 and 6), at a line error, or at a
telegram of the awaited station and tag, an ALERT apart, that is not of the kind and form expected, whatever its destination (deduced,
log entry 41); one to another destination than 0, or neither a REPORT nor an ORDER-ACK, counts as a stray besides (deduced, log entry
68). The failure is counted on the line, which may enter quarantine. While a repeat is due a line error is counted and fails no further
attempt, and such a telegram fails none either (the model's choice, log entry 91). With retries left a repeat is due; with none left
the exchange ends with the failure, LINE-QUARANTINED on a quarantined line, as its outcome at its party, and the line is IDLE. A check
that took the exchange is passed by the directory's binding of the station: the model's choice (log entry 120). -/
def Obligations.FailedAttemptIsRepeated : Prop :=
  let counted := fun (s : State) (l : FLine) (t : Telegram) =>
    let u := s.goodTelegram l
    if t.dest = 0 ∧ (t.kind = .report ∨ t.kind = .orderAck) then u else u.setLine l { u.line l with
      counters := { (u.line l).counters with strays := min 65535 ((u.line l).counters.strays + 1) } }
  (∀ (s : State) (l : FLine) (station : Nat),
    let u := s.line l
    let v : LineUnit := if u.fails = 0 then { u with fails := 1, first := some station, second := false }
      else { u with fails := min 255 (u.fails + 1), second := u.second || u.first != some station }
    (u.quarantined = true → s.failAttempt l station = s)
    ∧ (u.quarantined = false → ¬ (12 ≤ v.fails ∧ v.second = true) → s.failAttempt l station = s.setLine l v)
    ∧ (u.quarantined = false → 12 ≤ v.fails → v.second = true →
      s.failAttempt l station = (s.setLine l { v with
        quarantined := true, counters := { v.counters with quarantine := min 65535 (v.counters.quarantine + 1) } }).notify
          .lineQuarantined (.line l) (.one (v.fails : Int))))
    ∧ (∀ (s : State) (l : FLine) (e : Exchange), Settled s → (s.line l).mode = .awaiting → (s.line l).exch = some e →
      e.repeatDue = false →
      let again := fun (t : State) (f : AttemptFailure) =>
        t.setLine l { t.line l with exch := some { e with deadline := none, last := f, repeatDue := true } }
      let ended := fun (t : State) (f : AttemptFailure) =>
        let o : PollOutcome := if (t.line l).quarantined then .quarantined else match f with
          | .noResponse => .noResponse
          | .format => .format
        let v := t.setLine l { t.line l with exch := none }
        let w := match e.what with
          | .order tg _ => v.hand [.orderEnded tg .noReply]
          | .unbound _ => { v with relay := { v.relay with allowance := v.relay.allowance - 1 } }
          | .copy c => v.copyFailed l c o
          | .poll p => v.pollFailed l e.station o p.search
        settle Config.handoffBound (w.hand ((match e.check, w.bindingOf e.station with
          | true, some (.valve n) => [Handoff.judge n none]
          | _, _ => []) ++ [.lineIdle l]))
      let failed := fun (t : State) (f : AttemptFailure) =>
        if e.left = 0 then ended (t.failAttempt l e.station) f else again (t.failAttempt l e.station) f
      (∀ d, e.deadline = some d → exec (.attemptDeadlineExpiry l) s = .next (failed s .noResponse))
      ∧ (e.deadline = none → exec (.attemptDeadlineExpiry l) s = .next s)
      ∧ (∀ r, receive false r = none → exec (.lineError (.field l) r) s = .next (failed (s.setLine l { s.line l with
          receiving := false
          counters := { (s.line l).counters with lineErrors := min 65535 ((s.line l).counters.lineErrors + 1) } }) .format))
      ∧ (∀ r t, receive false r = some t → answersExchange e t = true → ¬ (t.kind = e.expected ∧ rightForm t.kind t.body = true) →
        exec (.replyNotOfRightForm l r) s = .next (failed (counted s l t) .format)))
    ∧ (∀ (s : State) (l : FLine) (e : Exchange) (r : Reception), Settled s → (s.line l).mode = .awaiting → (s.line l).exch = some e →
      e.repeatDue = true →
      (receive false r = none → exec (.lineError (.field l) r) s = .next (s.setLine l { s.line l with
          receiving := false
          counters := { (s.line l).counters with lineErrors := min 65535 ((s.line l).counters.lineErrors + 1) } }))
      ∧ ∀ t, receive false r = some t → answersExchange e t = true → ¬ (t.kind = e.expected ∧ rightForm t.kind t.body = true) →
        exec (.replyNotOfRightForm l r) s = .next (counted s l t))
    ∧ ∀ (s : State) (l : FLine) (c : DeskCopy) (o : PollOutcome),
      (c.flood = none → s.copyFailed l c o = s.pollFailed l c.tel.dest o false)
      ∧ ∀ f : Flood, c.flood = some f.id → s.flood f.id = some f →
        let rest := f.copies.filter (· != l)
        let others := s.relay.floods.filter fun g => g.id != f.id
        let t : State := { s with relay := { s.relay with floods := if rest = [] then others else others ++ [{ f with copies := rest }] } }
        s.copyFailed l c o = if f.replied = true ∨ rest ≠ [] then t else t.pollFailed l c.tel.dest o false

/-- A reply of the right form ends its exchange: the line has no exchange and is IDLE once nothing more waits to be acted on; it
counts as a telegram in and leaves the line with no failures and out of quarantine; the run state, the clock, the ring and the
holder and valve records stand. The ORDER-ACK of a valve's order starts its travel or ends it, a refusal or no reply fails it, and
a follow-up reverses an OPEN accepted; a valve's report gives its state, a position that is no end HALTED (or STUCK as before),
and ends the travel to the end asked for; a check judges the order that awaits it DONE, STUCK or UNKNOWN. That a report is used also
while the station is lost, and the order of what a valve judged hands on, are the model's choices (log entries 23 and 32). -/
def Obligations.ReplyEndsTheExchange : Prop :=
  (∀ (s : State) (l : FLine) (e : Exchange) (r : Reception) (t : Telegram), Settled s → (s.line l).mode = .awaiting →
    (s.line l).exch = some e → receive false r = some t → answersExchange e t = true → t.dest = 0 → t.kind = e.expected →
    rightForm t.kind t.body = true →
    ∃ u, exec (.fieldReplyTaken l r) s = .next u ∧ (u.line l).exch = none ∧ (u.handoffs = [] → (u.line l).mode = .idle)
      ∧ (u.line l).fails = 0 ∧ (u.line l).first = none ∧ (u.line l).second = false
      ∧ (u.line l).quarantined = false ∧ (u.line l).receiving = false
      ∧ (u.line l).counters = { (s.line l).counters with telegramsIn := min 65535 ((s.line l).counters.telegramsIn + 1) }
      ∧ u.runState = s.runState ∧ u.clock = s.clock ∧ u.acct.ring = s.acct.ring ∧ u.mem = s.mem ∧ u.desk.rx = s.desk.rx
      ∧ (∀ n, (u.holder n).map (fun x => (x.tab, x.damaged)) = (s.holder n).map fun x => (x.tab, x.damaged))
      ∧ (∀ n, (u.valve n).map (fun x => (x.tab, x.damaged)) = (s.valve n).map fun x => (x.tab, x.damaged)))
    ∧ (∀ (s : State) (v : Nat) (x : Valve), s.valve v = some x → x.slot.state ≠ .free →
      let out := fun (o : SlotOutcome) => Handoff.outcome (.valve v) x.slot.code x.slot.origin x.slot.tag o
      let told := fun (st : VState) (byReport : Bool) =>
        if byReport = true ∨ st ≠ x.state then [Handoff.valveTold v byReport (st != x.state)] else []
      let travels := fun (st : VState) => (s.setValve v { x with
        state := st, slot := { x.slot with state := .travel, deadline := some (s.elapsed + travelAllowance x), checkPending := false } }).hand
          [out .accepted, .valveTold v false (st != x.state)]
      let haltEnd : VState := if x.state = .unknown ∨ x.state = .halted then .halted else x.state
      let refused : VState := if x.slot.reversal then .unknown else x.state
      (x.slot.code = .shut → s.orderEnded (.valve v) (.ack .accepted) = travels .shutting)
      ∧ (x.slot.code = .opn → x.slot.followUp = none → s.orderEnded (.valve v) (.ack .accepted) = travels .opening)
      ∧ (∀ f l, x.slot.code = .opn → x.slot.followUp = some f → s.stationLine (s.valveStation v) = some l → (s.line l).mode ≠ .idle →
        s.orderEnded (.valve v) (.ack .accepted) = ((s.setValve v { x with
          state := .shutting, slot := ⟨.queued, .shut, 0, f.origin, f.tag, s.elapsed, none, false, none, true⟩ }).setLine l { s.line l with
            q0 := .slot (.valve v) (s.valveStation v) :: (s.line l).q0 }).hand [out .superseded, .valveTold v false (VState.shutting != x.state)])
      ∧ (x.slot.followUp = none →
        let ends := fun (t : State) (y : Valve) (st : VState) (o : SlotOutcome) (byReport : Bool) =>
          (t.setValve v { y with state := st, slot := Slot.free }).hand (out o :: told st byReport)
        let failed := s.notify .orderFailed (.valve v) (orderDetail x.slot.code x.slot.origin x.slot.tag)
        (x.slot.code = .halt → s.orderEnded (.valve v) (.ack .accepted) = ends s x haltEnd .done false
          ∧ s.orderEnded (.valve v) (.ack .done) = ends s x haltEnd .done false)
        ∧ (x.slot.code = .opn → s.orderEnded (.valve v) (.ack .done) = ends s x .opened .done false)
        ∧ (x.slot.code = .shut → s.orderEnded (.valve v) (.ack .done) = ends s x .shut .done false)
        ∧ s.orderEnded (.valve v) (.ack .refusedLocal) = ends (s.notify .valveLocal (.valve v)
            (orderDetail x.slot.code x.slot.origin x.slot.tag)) { x with localHand := true } refused .refused false
        ∧ s.orderEnded (.valve v) (.ack .refusedFault) = ends failed x refused .refused false
        ∧ s.orderEnded (.valve v) (.ack .refusedUnknown) = ends failed x refused .refused false
        ∧ s.orderEnded (.valve v) .noReply = ends failed x refused .noReply false
        ∧ ∀ (body : List Word) (p : Position), x.slot.state = .travel → valveSample body = some p →
          (x.slot.code = .opn ∧ p = .opened → s.valveReport v body = ends s { x with localHand := condLocal (condWord body) } .opened .done true)
          ∧ (x.slot.code = .shut ∧ p = .shut → s.valveReport v body = ends s { x with localHand := condLocal (condWord body) } .shut .done true))
      ∧ (∀ (body : List Word) (p : Position), x.slot.state = .travel → valveSample body = some p →
        ¬ (x.slot.code = .opn ∧ p = .opened) → ¬ (x.slot.code = .shut ∧ p = .shut) →
        s.valveReport v body = s.setValve v { x with localHand := condLocal (condWord body) })
      ∧ (∀ r, x.slot.state ≠ .travel ∨ x.slot.checkPending = false → s.judgeCheck v r = s)
      ∧ (x.slot.state = .travel → x.slot.checkPending = true → x.slot.followUp = none →
        let cause := fun (c : Cause) => match s.valveHolder v with
          | some h => [Handoff.addCause h c]
          | none => []
        let judged := fun (st : VState) (o : SlotOutcome) (c : Cause) (k : NoticeKind) =>
          (((s.setValve v { x with state := st, slot := Slot.free }).hand ([out o] ++ cause c
            ++ (if st ≠ x.state then [.valveTold v false true] else []))).notify k (.valve v) (.one (orderCodeNum x.slot.code)))
        s.judgeCheck v none = judged .unknown .unknown (.unknown v) .valveUnknown
        ∧ (x.slot.code = .opn → s.judgeCheck v (some .opened) = (s.setValve v { x with state := .opened, slot := Slot.free }).hand
            (out .done :: told .opened true))
        ∧ (x.slot.code = .shut → s.judgeCheck v (some .shut) = (s.setValve v { x with state := .shut, slot := Slot.free }).hand
            (out .done :: told .shut true))
        ∧ ∀ p, ¬ (x.slot.code = .opn ∧ p = .opened) → ¬ (x.slot.code = .shut ∧ p = .shut) →
          s.judgeCheck v (some p) = judged .stuck .stuck (.stuck v) .valveStuck))
    ∧ (∀ (s : State) (v : Nat) (x : Valve) (body : List Word), s.valve v = some x →
      let y : Valve := { x with localHand := condLocal (condWord body) }
      (valveSample body = none → s.valveReport v body = s.setValve v y)
      ∧ ∀ p, valveSample body = some p → x.slot.state ≠ .travel →
        let st : VState := match p with
          | .shut => .shut
          | .opened => .opened
          | _ => if x.state = .stuck then .stuck else .halted
        let t := s.setValve v { y with state := st }
        s.valveReport v body = (if st ≠ x.state ∧ x.state ≠ .unknown then t.notify .valveMoved (.valve v) (.one (vStateCode st)) else t).hand
          [.valveTold v true (st != x.state)])
    ∧ ∀ x : Valve, travelAllowance x = (if x.damaged then 1125 else x.tab.travel + (x.tab.travel + 3) / 4)

/-- An ALERT within the budget is counted, learned from, and handed on to its owner and to the desk; beyond it, it is dropped and
counted as chatter. A stray is counted and dropped. Each counts as a telegram in and restores a quarantined line. The window, once
due (log entry 5), clears the count. Learning creates a LEARNED entry, marks a station heard, moves one heard on another line with
its queued telegrams, locates one UNLOCATED with its search polls, or, inhibited, does no more than mark it heard. A poll moved is no
search poll any more, is moved too where its own reply creates the entry, and is placed also on a full Q2 (the model's choices, log
entries 26, 108 and 128). -/
def Obligations.AlertsAndStraysAreCounted : Prop :=
  (∀ (s : State) (l : FLine) (r : Reception) (t : Telegram), Settled s → (s.line l).mode ≠ .sending → receive false r = some t →
      let u := s.goodTelegram l
      (fieldClass (s.line l) t = .alert → (s.line l).alerts + 1 ≤ (s.line l).budget →
        exec (.fieldAlertReceived l r) s = .next (settle Config.handoffBound
          ((((u.setLine l { u.line l with alerts := (s.line l).alerts + 1 }).learn false l t.src).heardConditions t.src
            (condWord t.body)).hand [.owner t, .relayOut .alert l t]))
        ∧ ∃ v, exec (.fieldAlertReceived l r) s = .next v ∧ (v.line l).alerts = (s.line l).alerts + 1
          ∧ (v.line l).counters = (u.line l).counters ∧ (v.line l).quarantined = false ∧ v.runState = s.runState ∧ v.clock = s.clock)
      ∧ (fieldClass (s.line l) t = .alert → (s.line l).budget < (s.line l).alerts + 1 →
        exec (.fieldAlertReceived l r) s = .next (u.setLine l { u.line l with
          alerts := (s.line l).alerts + 1
          counters := { (u.line l).counters with chatter := min 65535 ((u.line l).counters.chatter + 1) } }))
      ∧ (fieldClass (s.line l) t = .stray → exec (.fieldStray l r) s = .next (u.setLine l { u.line l with
          counters := { (u.line l).counters with strays := min 65535 ((u.line l).counters.strays + 1) } })))
    ∧ (∀ (s : State) (l : FLine),
      let v : LineUnit := { s.line l with
        receiving := false, counters := { (s.line l).counters with telegramsIn := min 65535 ((s.line l).counters.telegramsIn + 1) } }
      s.goodTelegram l = if (s.line l).quarantined
        then (s.setLine l { v with quarantined := false, fails := 0, first := none, second := false }).notify .lineRestored (.line l) .absent
        else s.setLine l v)
    ∧ (∀ (s : State) (l : FLine), Settled s → exec (.chatterWindowExpiry l) s = .next (if (s.line l).windowDue ≤ s.elapsed
        then s.setLine l { s.line l with
          alerts := 0, budget := (lineSet (s.line l)).budget, windowDue := (s.line l).windowDue + 10 }
        else s))
    ∧ (∀ (s : State) (l : FLine) (station : Nat),
      (s.entry station = none → s.learn true l station = s)
      ∧ (s.entry station = none → s.dir.length < 64 → s.learn false l station =
        ({ s with
          dir := tblPut s.dir station { freshEntry (some l) .learned none true 0#12 with seq := s.relay.creation + 1 }
          relay := { s.relay with creation := s.relay.creation + 1 } } : State).gatherPolls station l)
      ∧ (s.entry station = none → 64 ≤ s.dir.length → (∀ p, p ∈ s.dir → p.2.kind ≠ .learned) → s.learn false l station =
        { s with relay := { s.relay with dirFull := min 65535 (s.relay.dirFull + 1) } })
      ∧ ∀ e inhibit, s.entry station = some e →
        (e.line = some l → s.learn inhibit l station = s.setEntry station { e with heard := true })
        ∧ (e.line ≠ some l → s.learn true l station = s)
        ∧ (e.line = none → s.learn false l station =
          (s.setEntry station { e with heard := true, line := some l, damaged := false }).gatherPolls station l)
        ∧ ∀ old, e.line = some old → old ≠ l → s.learn false l station =
          ((s.setEntry station { e with heard := true, line := some l, damaged := false }).notify .stationMoved (.station station)
            (.pair (lineNum old) (lineNum l))).moveQueued station old l)
    ∧ (∀ (s : State) (station : Nat) (old new : FLine), old ≠ new →
      let t := s.moveQueued station old new
      t = { s with lines := t.lines } ∧ (∀ k, k ≠ old → k ≠ new → t.line k = s.line k)
        ∧ t.line old = { s.line old with
          q0 := (s.line old).q0.filter fun e => q0Station e != station, q2 := (s.line old).q2.filter fun p => p.station != station }
        ∧ ((s.line new).mode ≠ .idle → (t.line new).q0 = (s.line new).q0 ++ (s.line old).q0.filter fun e => q0Station e == station)
        ∧ ((s.line new).mode ≠ .idle → (∀ p, p ∈ (s.line old).q2 → p.station ≠ station) → (t.line new).q2 = (s.line new).q2)
        ∧ ∀ p, (s.line new).mode ≠ .idle → (s.line old).q2.filter (·.station == station) = [p] → p.check = false →
          (∀ q, q ∈ (s.line new).q2 → q.station ≠ station) → (t.line new).q2 = (s.line new).q2 ++ [{ p with search := false }])
    ∧ ∀ (s : State) (station : Nat) (new l : FLine), l ≠ new →
      ((s.gatherPolls station new).line l) = { s.line l with q2 := (s.line l).q2.filter fun p => !(p.search && p.station == station) }

/-! ### Samples and standing -/

/-- A usable gauge sample on a holder whose record is sound gives its height, lifts, pressure, stock and sighted state by the
geometry of its record, its rate and motion from the rate base, and clears the gauge cause. The stock is the sum over the lifts, the
lifts afloat are counted past the upper edge of each cup zone, the pressure is that of the lifts afloat, and the sighted state follows
the rows of Table 1.4. A usable meter sample sets the baseline, is rejected beyond the limit, or is
credited: counts, volume with the residue carried, and the carried mark; a delta rejected takes on the counter of the model's free
values (log entries 14 and 27). A recorder sample gives the last pressure and the
interval figures, a governor sample the position and the limit in force (also while the station is lost: the model's choice, log
entry 23). A sample is unusable with the FAULT condition, or with a value that Table 7.5 does not give, a governor position above 100
among them (DEDUCED, log entry 24): a meter's changes nothing, a governor's sets the governor fault. The target follows the active segment, the shed level and
the floor; head and head short follow target, yard main pressure and lift; a step is claimed where the pressure lies outside the
dead band, and one wanted at the limit in force raises GOVERNOR LIMIT once. -/
def Obligations.GaugeSampleGivesTheStock : Prop :=
  (∀ (s : State) (h : Nat) (x : Holder) (mm : Nat), s.holder h = some x → x.rt.causes.record = false →
      ∃ y, (s.usableSample h x mm).holder h = some y ∧ y.tab = x.tab ∧ y.rt.height = some ⟨mm, s.clock.day, s.clock.second, false⟩
        ∧ y.rt.stale = false ∧ y.rt.sampled = true ∧ y.rt.causes.gauge = false
        ∧ y.rt.sighted = some (sightedAt x.tab x.rt.sighted mm).1 ∧ y.rt.stock = stockAt x.tab mm
        ∧ y.rt.lifts = (if (sightedAt x.tab x.rt.sighted mm).1 = .grounded then 0 else liftsAfloat x.tab mm)
        ∧ y.rt.pressure = pressureOf x.tab y.rt.lifts ∧ y.rt.state = s.derivedState y)
    ∧ (∀ (s : State) (h : Nat) (x : Holder) (mm : Nat), s.holder h = some x → x.rt.causes.record = false →
      ∃ y, (s.usableSample h x mm).holder h = some y
        ∧ (x.rt.rateBase = none → y.rt.rate = 0 ∧ y.rt.rateBase = some (mm, s.elapsed) ∧ y.rt.motion = .still)
        ∧ ∀ h0 t0, x.rt.rateBase = some (h0, t0) →
          let r := max (-9999) (min 9999 ((((mm : Int) - h0) * 60).tdiv ((s.elapsed - t0 : Nat) : Int)))
          (1800 < s.elapsed - t0 → y.rt.rate = 0 ∧ y.rt.rateBase = some (mm, s.elapsed) ∧ y.rt.motion = .still)
          ∧ (s.elapsed - t0 < 10 → y.rt.rate = x.rt.rate ∧ y.rt.rateBase = some (h0, t0) ∧ y.rt.motion = x.rt.motion)
          ∧ (10 ≤ s.elapsed - t0 → s.elapsed - t0 ≤ 1800 → y.rt.rate = r ∧ y.rt.rateBase = some (mm, s.elapsed)
            ∧ y.rt.motion = if 10 < r then .rising else if r < -10 then .falling else .still))
    ∧ (∀ (r : HolderRec) (mm : Nat), 1 ≤ r.lifts → r.lifts ≤ 4 →
      let all := [r.lift1, r.lift2, r.lift3, r.lift4]
      let B := fun (k : Nat) => ((all.take k).map (·.stroke)).sum
      let cupAt := fun (k : Nat) => 1 ≤ k ∧ k < r.lifts ∧ B k ≤ mm + r.cupBand ∧ mm < B k + r.cupBand
      stockAt r mm = (((all.take r.lifts).zipIdx.map fun p => p.1.capacity * min (mm - B p.2) p.1.stroke).sum) / 1000
      ∧ liftsAfloat r mm = 1 + ((List.range r.lifts).filter fun k => decide (1 ≤ k ∧ B k + r.cupBand ≤ mm)).length
      ∧ (∀ n, n ≤ r.lifts → pressureOf r n = ((all.take n).map (·.step)).sum)
      ∧ ∀ held : Option Sighted,
        (mm < r.margin → sightedAt r held mm = (.grounded, 0)) ∧ (r.margin ≤ mm → mm < r.reserve → sightedAt r held mm = (.low, 0))
        ∧ (∀ k, r.margin ≤ mm → r.reserve ≤ mm → cupAt k → (∀ j, j < k → ¬ cupAt j) → sightedAt r held mm = (.cup, k))
        ∧ (r.margin ≤ mm → r.reserve ≤ mm → (∀ k, ¬ cupAt k) →
          (mm < r.highWarning → sightedAt r held mm = (.working, 0))
          ∧ (r.highWarning ≤ mm → held ≠ some .top → mm < r.topLimit → sightedAt r held mm = (.high, 0))
          ∧ (r.highWarning ≤ mm → held ≠ some .top → r.topLimit ≤ mm → sightedAt r held mm = (.top, 0))
          ∧ (r.highWarning ≤ mm → held = some .top → mm + r.topHyst < r.topLimit → sightedAt r held mm = (.high, 0))
          ∧ (r.highWarning ≤ mm → held = some .top → r.topLimit ≤ mm + r.topHyst → sightedAt r held mm = (.top, 0))))
    ∧ (∀ (s : State) (n : Nat) (body : List Word),
      let m := s.meter n
      (m.lost = true → s.meterReport n body = s) ∧ (meterSample body = none → s.meterReport n body = s)
      ∧ ∀ total, m.lost = false → meterSample body = some total →
        let again := condRestarted (condWord body)
        (m.damaged = true → s.meterReport n body = s.setMeter n { m with carry := true })
        ∧ (m.damaged = false → m.last = none → s.meterReport n body = s.setMeter n { m with last := some total, carry := false })
        ∧ ∀ p, m.damaged = false → m.last = some p →
          let delta := if again then total else (total + 16777216 - p) % 16777216
          (m.limit < delta → m.rejected + delta < 281474976710656 →
            s.meterReport n body = ({ s.setMeter n { m with last := some total, rejected := m.rejected + delta } with free := s.free + 1 }).notify
              .meterImplausible (.meter n) (.one (min 65535 delta)))
          ∧ (delta ≤ m.limit → m.accepted + delta < 281474976710656 → ∃ t, s.meterReport n body = t
            ∧ t.meters = tblPut s.meters n { m with
                last := some total, residue := (delta * m.weight + m.residue) % 100, carry := false, accepted := m.accepted + delta }
            ∧ ∀ q, partOf s.acct.openAcct n = some q → q.counts + delta < 281474976710656 →
              partOf t.acct.openAcct n = some { q with
                counts := q.counts + delta
                volume := min 999999 (q.volume + (delta * m.weight + m.residue) / 100)
                volumeHeld := q.volumeHeld || decide (999999 < q.volume + (delta * m.weight + m.residue) / 100)
                carried := q.carried || (m.carry || again) }))
    ∧ (∀ (s : State) (d : Nat) (x : District), s.district d = some x →
      (∀ body p, s.isLost x.tab.recorder = false → recorderSample body = some p → ∃ y, (s.recorderReport d body).district d = some y
        ∧ y.tab = x.tab ∧ y.slot = x.slot ∧ y.rt.last = some ⟨p, s.clock.day, s.clock.second, false⟩ ∧ y.rt.recorderFault = false
        ∧ y.rt.minP = some ((x.rt.minP.map fun m => min m p).getD p) ∧ y.rt.maxP = some ((x.rt.maxP.map fun m => max m p).getD p))
      ∧ (∀ body, s.isLost x.tab.recorder = true → s.recorderReport d body = s)
      ∧ (∀ body, governorSample body = none → s.governorReport d body = s.setDistrict d { x with rt := { x.rt with governorFault := true } })
      ∧ (∀ body pos dir, governorSample body = some (pos, dir) →
        let lim := if condLimit (condWord body) then dir else .none
        s.governorReport d body = s.setDistrict d { x with rt := { x.rt with
          governorFault := false, position := some pos, limit := lim, limitNoticed := x.rt.limitNoticed && lim == x.rt.limit } })
      ∧ (x.damaged = false → ∃ t, s.retarget d = t ∧ t.district d = some { x with rt := { x.rt with
          seg := some (s.activeSegment x.tab)
          target := (segmentOf x.tab (s.activeSegment x.tab)).map fun g => max x.tab.floor (match x.rt.shed with
            | 0 => g.setpoint
            | 1 => g.setpoint * 90 / 100
            | 2 => g.setpoint * 80 / 100
            | _ => x.tab.floor) } })
      ∧ (x.damaged = true → ∃ t, s.retarget d = t ∧ t.district d = some { x with rt := { x.rt with seg := none, target := none } })
      ∧ (x.tab.inService = false ∨ x.damaged = true → s.headEval d = s)
      ∧ (∀ target, x.tab.inService = true → x.damaged = false → x.rt.target = some target →
        let base := (s.draw.main : Int) + x.tab.headGain
        let short := decide (x.rt.state ≠ .out ∧ base + x.rt.lift < (target : Int) + s.yardNow.margin)
        let y : District := { x with rt := { x.rt with
          head := base + x.rt.lift, headStale := s.draw.mainStale, headShort := short, handed := some (target, base) } }
        s.headEval d = (if short = x.rt.headShort then (s.setDistrict d y).hand [.evaluated d]
          else ((s.setDistrict d y).hand [.evaluated d]).headShortChange d x target (base + x.rt.lift) short))
      ∧ ∀ p t, x.rt.target = some t →
        let considered := x.tab.auto = true ∧ s.runState = .run ∧ (x.rt.state = .tracking ∨ x.rt.state = .headShort)
          ∧ x.slot.state = .free ∧ x.rt.settleDue = none ∧ x.rt.governorFault = false ∧ s.isLost x.tab.governor = false ∧ s.drawCup = false
        let noticed := fun (l : Limit) => if x.rt.limitNoticed then s
          else (s.setDistrict d { x with rt := { x.rt with limitNoticed := true } }).notify .governorLimit (.district d) (.one (limitCode l))
        (¬ considered → s.governorLoop d p = s)
        ∧ (t ≤ p + x.tab.deadBand → p ≤ t + x.tab.deadBand → s.governorLoop d p = s)
        ∧ (considered → p + x.tab.deadBand < t → s.governorLoop d p = if x.rt.state = .headShort then s
          else if x.rt.limit = .up then noticed .up else s.hand [.claim (.governor d) .raise 0 .governor none])
        ∧ (considered → t + x.tab.deadBand < p → s.governorLoop d p = if x.rt.limit = .down then noticed .down
          else s.hand [.claim (.governor d) .lower 0 .governor none]))
    ∧ (∀ (s : State) (r : DistrictRec), (s.clock.set = false → s.activeSegment r = ⟨false, 1⟩)
      ∧ (∀ f, s.clock.set = true → r.profFlag = some f → (s.activeSegment r).profB = s.flags.getLsbD f)
      ∧ (s.clock.set = true → r.profFlag = none → (s.activeSegment r).profB = false)
      ∧ (s.clock.set = true →
        let p := if (s.activeSegment r).profB then r.profB else r.profA
        let begun := (p.filter fun q => decide (q.start ≤ s.clock.second / 60)).length
        (s.activeSegment r).index = if begun = 0 then p.length else begun))
    ∧ ∀ s : State, s.drawCup = s.holders.any fun p =>
      p.2.tab.inService && s.valveState p.2.tab.outlet == some .opened && p.2.rt.state == .cup

/-- A charged failure raises the station's failure count, held at 15, and declares the station lost at the threshold; a good
outcome, GOOD or UNMASKED-CONDITION by the mask, is recorded, clears the count and finds a lost station. -/
def Obligations.StationIsLostAndFound : Prop :=
  (∀ (s : State) (l : FLine) (station : Nat) (e : DirEntry) (n : Nat) (p : PollPos), s.entry station = some e →
      s.enabledPoll station = some (n, p) →
      let r := s.setPoll n { p with lastOutcome := some (.noResponse, s.elapsed) }
      let k := min 15 (e.failures + 1)
      (e.lost = true ∨ k < s.yardNow.lostThreshold →
        s.pollFailed l station .noResponse false = r.setEntry station { e with failures := k })
      ∧ (e.lost = false → s.yardNow.lostThreshold ≤ k →
        s.pollFailed l station .noResponse false = ((r.setEntry station { e with failures := k, lost := true }).notify
          .stationLost (.station station) (.pair k 3)).hand [.stationLost station]))
    ∧ (∀ (s : State) (station : Nat) (e : DirEntry) (cond : Word), s.entry station = some e → s.enabledPoll station = none →
      s.pollGood station cond = if e.lost
        then (s.setEntry station { e with failures := 0, lost := false }).notify .stationFound (.station station) .absent
        else s.setEntry station { e with failures := 0, lost := false })
    ∧ ∀ (s : State) (station : Nat) (e : DirEntry) (cond : Word) (n : Nat) (p : PollPos), s.entry station = some e →
      s.enabledPoll station = some (n, p) →
      let r := s.setPoll n { p with
        lastOutcome := some (if p.tab.mask &&& cond = 0#16 then .good else .unmasked, s.elapsed)
        lastGood := some (s.clock.day, s.clock.second) }
      s.pollGood station cond = if e.lost
        then (r.setEntry station { e with failures := 0, lost := false }).notify .stationFound (.station station) .absent
        else r.setEntry station { e with failures := 0, lost := false }

/-! ### Timers -/

/-- A second advances the elapsed count and the clock, and a minute it reaches is due; the minute boundary counts the shed and
boosted minutes of each district in service; the aging sweep removes the LEARNED entries not heard; a cycle expiry begins the
next cycle: the cycle polls still queued go and are counted, and the poll of each due entry is placed on its station's line, or,
UNLOCATED, on its search line, unless one is queued there already or the queue is full, which counts an overrun drop in the second case
and, where both hold, none (the model's choice, log entry 124). An expiry taken before it is due does nothing (log entry 5). In RUN and HOLD the cycle examines each holder: a TOP, FAULT or BLIND with its shut due claims a SHUT of its
inlet, a GROUNDED one of its outlet, with its own origin, unless the valve is SHUT or SHUTTING or its slot holds a SHUT; a holder that
enters such a state claims it at once; SAFETY SHUT is raised at the first claim of an entry. The top guard that stands before them is
called in every run state (the model's choice, log entry 16). -/
def Obligations.ClockAndCycleTimersRun : Prop :=
  (∀ s : State, Settled s → ∃ t, exec .yardClockSecond s = .next t ∧ t.elapsed = s.elapsed + 1
      ∧ (s.clock.second + 1 < 86400 → t.clock = { s.clock with second := s.clock.second + 1 })
      ∧ (86400 ≤ s.clock.second + 1 → t.clock = { s.clock with second := 0, day := (s.clock.day + 1) % 65536 })
      ∧ (t.minuteDue = true ↔ s.minuteDue = true ∨ (s.clock.set = true ∧ t.clock.second % 60 = 0)
          ∨ (s.clock.set = false ∧ t.elapsed % 60 = 0))
      ∧ t = { s with elapsed := t.elapsed, clock := t.clock, minuteDue := t.minuteDue })
    ∧ (∀ s : State, Settled s → (s.minuteDue = false → exec .minuteBoundary s = .next s)
      ∧ (s.minuteDue = true → ∃ t, exec .minuteBoundary s = .next t ∧ t.minuteDue = false ∧ SameMoment { s with minuteDue := false } t
        ∧ SameRecords s t ∧ SameSamples s t
        ∧ ∀ d x, s.district d = some x → (t.district d).map (fun y => (y.rt.shedMin, y.rt.boostMin)) = some
          (if x.tab.inService && decide (1 ≤ x.rt.shed) then min 65535 (x.rt.shedMin + 1) else x.rt.shedMin,
           if x.tab.inService && x.rt.boosted then min 65535 (x.rt.boostMin + 1) else x.rt.boostMin)))
    ∧ (∀ (s : State) (due : Nat), Settled s → s.relay.agingDue = some due →
      exec .agingExpiry s = .next (if due ≤ s.elapsed
        then { s with
          dir := (s.dir.filter fun p => !(p.2.kind == .learned && !p.2.heard)).map fun p => (p.1, { p.2 with heard := false })
          relay := { s.relay with agingDue := s.yardNow.aging.map fun p => due + 60 * p } }
        else s))
    ∧ (∀ s : State, Settled s → (s.elapsed < s.cycle.due → exec .cycleExpiry s = .next s)
      ∧ (s.cycle.due ≤ s.elapsed → ∃ t, exec .cycleExpiry s = .next t ∧ t.cycle =
          ⟨(s.cycle.number + 1) % 65536, s.cycle.due + s.yardNow.cyclePeriod, s.yardNow.cyclePeriod, s.cycle.expiries + 1⟩
        ∧ t.runState = s.runState ∧ t.clock = s.clock ∧ t.acct.ring = s.acct.ring ∧ t.mem = s.mem ∧ SameSamples s t)
      ∧ (s.cycle.due ≤ s.elapsed →
        let r := s.clearCycles
        let u := if r.2 = 0 then r.1 else r.1.notify .cycleOverrun (.cycle ((s.cycle.number + 1) % 65536)) (.one (r.2 : Int))
        exec .cycleExpiry s = .next (settle Config.handoffBound (((s.polls.map (·.1)).foldl State.offerCycle { u with
          cycle := ⟨(s.cycle.number + 1) % 65536, s.cycle.due + s.yardNow.cyclePeriod, s.yardNow.cyclePeriod, s.cycle.expiries + 1⟩ }).hand
            [.safetyExamine, .fillCycle, .drawCycle]))))
    ∧ (∀ (s : State), let past := fun (l : FLine) => ((s.line l).q2.filter fun p => !p.check).length
      s.clearCycles = ({ s with lines := s.clearCycles.1.lines }, past .f1 + past .f2 + past .f3)
      ∧ ∀ l, s.clearCycles.1.line l = { s.line l with
        q2 := (s.line l).q2.filter fun p => p.check
        counters := { (s.line l).counters with overrun := min 65535 ((s.line l).counters.overrun + past l) } })
    ∧ (∀ (s : State) (n : Nat) (p : PollPos), s.poll n = some p →
      let due := p.tab.enabled = true ∧ p.damaged = false ∧ s.cycle.number % p.tab.nth = 0
      (¬ due → s.offerCycle n = s)
      ∧ ∀ l search, due → (s.stationLine p.tab.station = some l ∧ search = false) ∨ (s.stationLine p.tab.station = none ∧ l = p.search ∧ search = true) →
        ((∃ q, q ∈ (s.line l).q2 ∧ q.station = p.tab.station) → s.offerCycle n = s.setLine l (wakeUnit (s.line l)))
        ∧ ((∀ q, q ∈ (s.line l).q2 → q.station ≠ p.tab.station) → 64 ≤ (s.line l).q2.length → s.offerCycle n =
          s.setLine l (wakeUnit { s.line l with counters := { (s.line l).counters with
            overrun := min 65535 ((s.line l).counters.overrun + 1) } }))
        ∧ ((∀ q, q ∈ (s.line l).q2 → q.station ≠ p.tab.station) → (s.line l).q2.length < 64 → s.offerCycle n =
          (s.setLine l (wakeUnit { s.line l with q2 := (s.line l).q2
            ++ [⟨p.tab.station, p.tab.cls, p.tab.retries, false, search, p.tab.copy, false, n⟩] })).setPoll n { p with
              lastCycle := some s.cycle.number
              search := if search then (match p.search with
                | .f1 => .f2
                | .f2 => .f3
                | .f3 => .f1) else p.search }))
    ∧ (∀ s : State, s.safetyExamine = if s.runState = .standby then s else s.hand (s.holders.map fun p => .safetyExamineOne p.1))
    ∧ ∀ (s : State) (h : Nat) (x : Holder), s.holder h = some x →
      let calls := fun (st : HState) (v : Nat) (o : Origin) => (st = .top ∧ v = x.tab.inlet ∧ o = .autoTop)
        ∨ (st = .grounded ∧ v = x.tab.outlet ∧ o = .autoGround)
        ∨ (st = .fault ∧ v = x.tab.inlet ∧ o = .autoFault ∧ x.tab.inlet ∉ x.rt.causes.stuck ∧ x.tab.inlet ∉ x.rt.causes.unknown)
        ∨ (st = .blind ∧ v = x.tab.inlet ∧ o = .autoBlind ∧ x.rt.blindShutDue = true)
      let n := x.rt.noticed
      let mark : Origin → Bool × Noticed := fun o => match o with
        | .autoTop => (n.top, { n with top := true })
        | .autoGround => (n.grounded, { n with grounded := true })
        | .autoFault => (n.fault, { n with fault := true })
        | _ => (n.blind, { n with blind := true })
      let claimed := fun (t : State) (v : Nat) (o : Origin) => (if (mark o).1 = true then t
        else (t.setHolder h { x with rt := { x.rt with noticed := (mark o).2 } }).notify .safetyShut (.valve v) (.one (originCode o))).hand
          [.claim (.valve v) .shut 0 o none]
      let shut := fun (v : Nat) => s.valveState v = some .shut ∨ s.valveState v = some .shutting
      (∀ v o, x.tab.inService = true → calls x.rt.state v o → ¬ shut v →
        (∀ sl, s.slot (.valve v) = some sl → sl.followUp = none ∧ (sl.state = .free ∨ sl.code = .opn ∨ sl.code = .halt)) →
        s.safetyExamineOne h = claimed s v o)
      ∧ (∀ v o, calls x.rt.state v o → (shut v ∨ ∃ sl, s.slot (.valve v) = some sl ∧ ((sl.state ≠ .free ∧ sl.code = .shut) ∨ sl.followUp ≠ none)) →
        s.safetyExamineOne h = s)
      ∧ (x.tab.inService = false ∨ (∀ v o, ¬ calls x.rt.state v o) → s.safetyExamineOne h = s)
      ∧ ∀ st : HState, let t := if st = .top then s.hand [.topGuard h] else s
        (∀ v o, calls st v o → s.runState ≠ .standby → ¬ shut v → s.entryShuts h x st = claimed t v o)
        ∧ (∀ v o, calls st v o → s.runState = .standby ∨ shut v → s.entryShuts h x st = t)
        ∧ ((∀ v o, ¬ calls st v o) → s.entryShuts h x st = t)

/-- The park timer answers TOO-LATE and empties the slot; the blind grace timer makes the inlet's shut due, and in RUN and HOLD
claims it; the rate window acts on every holder examined: the still-window count, the window mark and long-still, with HOLDER STILL
(a count of 2 kept by a record write: the model's choice, log entry 72; no SAFETY SHUT beside BLIND SHUT, which stands before the
notices of its claim: log entries 47 and 32); the travel allowance of a valve asks for a check poll at the head of Q2, and no check asked for earlier is
awaited any more. -/
def Obligations.HolderAndValveTimersExpire : Prop :=
  (∀ (s : State) (n : Nat) (x : Holder) (p : Parked), Settled s → s.holder n = some x → x.rt.park = some p →
      exec (.parkTimerExpiry n) s = .next (if p.due ≤ s.elapsed
        then (s.setHolder n { x with rt := { x.rt with park := none } }).answerRelayed p.tag.num 34 .tooLate none p.tag.dest
        else s))
    ∧ (∀ (s : State) (n : Nat) (x : Holder) (due : Nat), Settled s → s.holder n = some x → x.rt.graceDue = some due →
      let y : Holder := { x with rt := { x.rt with graceDue := none, blindShutDue := true } }
      (s.elapsed < due → exec (.blindGraceExpiry n) s = .next s)
      ∧ (due ≤ s.elapsed → s.runState = .standby →
        exec (.blindGraceExpiry n) s = .next ((s.setHolder n y).notify .blindShut (.holder n) .absent))
      ∧ (due ≤ s.elapsed → s.runState ≠ .standby → exec (.blindGraceExpiry n) s = .next (settle Config.handoffBound
        (((s.setHolder n y).notify .blindShut (.holder n) .absent).hand [.claim (.valve x.tab.inlet) .shut 0 .autoBlind none, .fillGrace n])))
      ∧ (due ≤ s.elapsed → ∃ t, exec (.blindGraceExpiry n) s = .next t ∧ (t.holder n).map (·.rt.blindShutDue) = some true
        ∧ SameMoment s t ∧ SameRecords s t ∧ SameSamples s t))
    ∧ (∀ s : State, Settled s → (s.elapsed < s.rateDue → exec .rateWindowExpiry s = .next s)
      ∧ (s.rateDue ≤ s.elapsed → tblWf s.holders = true → ∃ t, exec .rateWindowExpiry s = .next t ∧ t.rateDue = s.rateDue + 300
        ∧ (∀ n x, s.holder n = some x → t.holder n = some { x with rt := (if x.tab.inService && x.rt.sighted.isSome && x.rt.state != .blind
            then { windowHolder x with sampled := false } else { x.rt with sampled := false }) })
        ∧ t.runState = s.runState ∧ t.clock = s.clock ∧ SameRecords s t ∧ t.valves = s.valves ∧ t.lines = s.lines)
      ∧ (s.rateDue ≤ s.elapsed → exec .rateWindowExpiry s = .next (s.holders.foldl State.windowOne { s with rateDue := s.rateDue + 300 })))
    ∧ (∀ x : Holder,
      let near := ∃ g m, x.rt.height = some g ∧ x.rt.windowMark = some m ∧ g.mm ≤ m + 10 ∧ m ≤ g.mm + 10
      let mark := x.rt.height.map (·.mm)
      (x.rt.sampled = true → near → windowHolder x = { x.rt with
        stillCount := min 2 (x.rt.stillCount + 1), windowMark := mark, longStill := x.rt.longStill || decide (2 ≤ x.rt.stillCount + 1) })
      ∧ (x.rt.sampled = false ∨ ¬ near → windowHolder x = { x.rt with stillCount := 0, windowMark := mark, longStill := false }))
    ∧ (∀ (s : State) (n : Nat) (x y : Holder), s.holder n = some x → x.tab.inService = true → x.rt.sighted ≠ none → x.rt.state ≠ .blind →
      let t := s.setHolder n { x with rt := { windowHolder x with sampled := false } }
      let opened := s.valveState x.tab.inlet = some .opened ∨ s.valveState x.tab.outlet = some .opened
      let newly := (windowHolder x).longStill = true ∧ x.rt.longStill = false
      (newly → opened → s.windowOne (n, y) = t.notify .holderStill (.holder n) (.one (((x.rt.height.map (·.mm)).getD 0 : Nat) : Int)))
      ∧ (¬ (newly ∧ opened) → s.windowOne (n, y) = t))
    ∧ (∀ (s : State) (v : Nat) (x : Valve) (due : Nat) (l : FLine), Settled s → s.valve v = some x → x.slot.state = .travel →
      x.slot.deadline = some due → x.slot.checkPending = false →
      (s.elapsed < due → exec (.travelAllowanceExpiry v) s = .next s)
      ∧ (due ≤ s.elapsed → s.isLost (s.valveStation v) = false → s.stationLine (s.valveStation v) = some l → (s.line l).exch = none →
        (s.line l).mode ≠ .idle → (∀ p, p ∈ (s.line l).q2 → p.station ≠ s.valveStation v) → (s.line l).q2.length < 64 →
        let u := (s.setValve v { x with slot := { x.slot with checkPending := true } }).forgetChecks (s.valveStation v)
        exec (.travelAllowanceExpiry v) s = .next (u.setLine l { u.line l with q2 := s.askedPoll (s.valveStation v) :: (u.line l).q2 })))
    ∧ (∀ (s : State) (st : Nat), (∀ k, (s.forgetChecks st).line k = forgetCheck st (s.line k))
      ∧ s.forgetChecks st = { s with lines := (s.forgetChecks st).lines }
      ∧ (s.enabledPoll st = none → s.askedPoll st = ⟨st, 3, 1, true, false, false, true, 0⟩)
      ∧ ∀ n p, s.enabledPoll st = some (n, p) → s.askedPoll st = ⟨st, p.tab.cls, p.tab.retries, true, false, p.tab.copy, true, n⟩)
    ∧ ∀ (st : Nat) (u : LineUnit),
      let still := fun (p : PartPoll) => if p.station = st then { p with asked := false } else p
      (forgetCheck st u).q2 = u.q2.map still
        ∧ (∀ p, u.selected = some (.poll p) → (forgetCheck st u).selected = some (.poll (still p)))
        ∧ (∀ e, u.exch = some e → e.station = st → (forgetCheck st u).exch = some { e with check := false })
        ∧ (forgetCheck st u).mode = u.mode ∧ (forgetCheck st u).q0 = u.q0 ∧ (forgetCheck st u).q1 = u.q1

/-- The turn timer advances the turn and the working copy at a wrap; the deferral deadline waives the cup condition; the settle
timer stops; a release hold that expires out of RUN leaves the stop due; the recovery timer lowers the reserve level with its
flag and notice; a booster order at its deadline fails and a booster undecided at its deadline is FAILED. The deferral deadline absent
from its expiry on, the order of the notices of a stop, a stop due made absent when its booster becomes STOPPING, and the deadline of a
booster undecided in any state are the model's choices (log entries 76, 32, 38, 123 and 93). -/
def Obligations.PlantTimersExpire : Prop :=
  (∀ (s : State) (due : Nat), Settled s → s.fill.turnDue = some due →
      let next := (s.fill.turn + 1) % 24
      (s.elapsed < due → exec .turnTimerExpiry s = .next s)
      ∧ (due ≤ s.elapsed → ∃ t, exec .turnTimerExpiry s = .next t ∧ t.fill.turn = next
        ∧ t.fill.turnDue = some (due + 60 * s.yardNow.turnPeriod)
        ∧ t.fill.work = (if next = 0 ∧ s.fill.pendFlag = true then s.fill.pend else s.fill.work) ∧ t.fill.pend = s.fill.pend
        ∧ t.fill.pendFlag = (s.fill.pendFlag && next != 0) ∧ SameMoment s t ∧ SameSamples s t))
    ∧ (∀ (s : State) (c : FillChange) (due : Nat), Settled s → s.fill.chg = some c → c.deferral = some due →
      (s.elapsed < due → exec .deferralDeadlineExpiry s = .next s)
      ∧ (due ≤ s.elapsed → s.runState = .standby → s.inletState c.new ≠ some .opened → exec .deferralDeadlineExpiry s = .next
        { s with fill := { s.fill with chg := some { c with deferral := none, waived := true } } })
      ∧ (due ≤ s.elapsed → exec .deferralDeadlineExpiry s = .next (settle Config.handoffBound (({ s with
          fill := { s.fill with chg := some { c with deferral := none, waived := true } } } : State).hand [.fillTest]))))
    ∧ (∀ (s : State) (d : Nat) (x : District) (due : Nat), Settled s → s.district d = some x → x.rt.settleDue = some due →
      exec (.settleExpiry d) s = .next (if due ≤ s.elapsed then s.setDistrict d { x with rt := { x.rt with settleDue := none } } else s))
    ∧ (∀ (s : State) (b : Nat) (x : Booster) (due : Nat), Settled s → s.booster b = some x → x.releaseDue = some due →
      (s.elapsed < due → exec (.releaseHoldExpiry b) s = .next s)
      ∧ (due ≤ s.elapsed → x.state = .running → s.runState ≠ .run → exec (.releaseHoldExpiry b) s = .next
        { s with boosters := tblPut (tblPut s.boosters b { x with releaseDue := none }) b { x with releaseDue := none, stopDue := some .release } })
      ∧ (due ≤ s.elapsed → x.state = .running → s.runState = .run → exec (.releaseHoldExpiry b) s = .next (settle Config.handoffBound
        (((((s.setBooster b { x with releaseDue := none }).notify .boosterStopping (.booster b) (.one 1)).hand
          [.claim (.booster b) .stop 0 .booster none]).boosterStopping b { x with releaseDue := none })))))
    ∧ (∀ (s : State) (due : Nat), Settled s → s.pool.recoveryDue = some due → due ≤ s.elapsed → s.districts = [] →
      exec .recoveryExpiry s = .next (({ s with
        pool := { s.pool with level := s.pool.level - 1, recoveryDue := s.recoveryAfter (s.pool.level - 1) none }
        flags := setFlag s.flags 6 (decide (1 ≤ s.pool.level - 1)) } : State).notify .reserveLevel .none
          (.pair ((s.pool.level - 1) * 256 + s.pool.usable / 65536 % 256) (s.pool.usable % 65536))))
    ∧ (∀ (s : State) (b : Nat) (x : Booster) (due : Nat), Settled s → s.booster b = some x → x.slot.state = .travel →
      x.slot.deadline = some due → x.slot.followUp = none →
      (s.elapsed < due → exec (.boosterDeadlineExpiry b) s = .next s)
      ∧ (due ≤ s.elapsed → s.isLost x.tab.station = false → exec (.boosterDeadlineExpiry b) s = .next (settle Config.handoffBound
        ((((s.notify .orderFailed (.booster b) (orderDetail x.slot.code x.slot.origin x.slot.tag)).setBooster b { x with slot := Slot.free }).hand
          [.outcome (.booster b) x.slot.code x.slot.origin x.slot.tag .allowance])))))
    ∧ ∀ (s : State) (b : Nat) (x : Booster) (due : Nat), Settled s → s.booster b = some x → x.undecided = some due → x.damaged = false →
      (s.elapsed < due → exec (.undecidedDeadlineExpiry b) s = .next s)
      ∧ (due ≤ s.elapsed → x.district = none → s.poolMode = .manual ∨ s.runState ≠ .run → exec (.undecidedDeadlineExpiry b) s = .next
        ((s.setBooster b { x with state := .failed, district := none, releaseDue := none, stopDue := none, cause := some .allowance,
                                  undecided := none }).notify .boosterFailed (.booster b) (.one 3)))

/-- Start-up from a store that does not answer, or whose blocks are all SKIP, gives the reset values, with a notice for each bad
block; from LOAD blocks it gives the records of the tables that the store was written from; an auto-run that is due and passes the
checks of RUN enters RUN; an account due with room in the ring is closed into a record and the next one opened (a close or an
auto-run taken before it is due does nothing: log entry 5; the store: log entry 8). -/
def Obligations.StartUpAutoRunAndAccountClose : Prop :=
  (∀ (s : State) (r : StoreRead), (∃ t, exec (.powerOnReset r) s = .next t ∧ t.runState = .standby ∧ t.clock = ⟨0, 0, false⟩
      ∧ t.elapsed = 0 ∧ t.acct.ring = [] ∧ t.desk.rx = [] ∧ t.mem.store = s.mem.store ∧ t.mem.tracking = 0 ∧ t.pending = s.pending)
      ∧ (s.mem.store.map (·.code) = [1, 2, 3, 4, 5, 6, 7, 9, 11, 12, 13, 14] → r.answers = false →
        exec (.powerOnReset r) s = .next (s.mem.store.foldl (fun acc b => acc.notify .storeBlockBad .none (.one b.code))
          { State.reset with pending := s.pending, free := s.free, mem := { State.reset.mem with store := s.mem.store } }))
      ∧ (r.answers = true → r.failed = [] → (∀ b, b ∈ s.mem.store → b.good = true ∧ b.content = none) →
        exec (.powerOnReset r) s = .next
          { State.reset with pending := s.pending, free := s.free, mem := { State.reset.mem with store := s.mem.store } })
      ∧ ∀ s0 : State, s.mem.store = s0.snapshot 0#16 → r.answers = true → r.failed = [] → ∃ t, exec (.powerOnReset r) s = .next t
        ∧ (∀ n, (t.holder n).map (fun x => (x.tab, x.damaged)) = (s0.holder n).map fun x => (x.tab, x.damaged))
        ∧ (∀ n, (t.valve n).map (fun x => (x.tab, x.damaged)) = (s0.valve n).map fun x => (x.tab, x.damaged))
        ∧ (∀ n, (t.district n).map (fun x => (x.tab, x.damaged)) = (s0.district n).map fun x => (x.tab, x.damaged))
        ∧ (∀ n, (t.booster n).map (fun x => (x.tab, x.damaged)) = (s0.booster n).map fun x => (x.tab, x.damaged))
        ∧ (∀ n, ((t.meter n).weight, (t.meter n).limit, (t.meter n).damaged) = ((s0.meter n).weight, (s0.meter n).limit, (s0.meter n).damaged))
        ∧ (t.yard, t.yardPresent, t.yardDamaged) = (s0.yard, s0.yardPresent, s0.yardDamaged)
        ∧ (∀ l, ((t.line l).set, (t.line l).damaged) = ((s0.line l).set, (s0.line l).damaged))
        ∧ (t.polls.map fun p => (p.1, p.2.tab, p.2.damaged)) = (s0.polls.map fun p => (p.1, p.2.tab, p.2.damaged)) ∧ t.pollHoles = s0.pollHoles
        ∧ (t.draw.tab, t.draw.recDamaged, t.draw.mode, t.draw.modeDamaged) = (s0.draw.tab, s0.draw.recDamaged, s0.draw.mode, s0.draw.modeDamaged)
        ∧ (t.pool.mode, t.pool.modeDamaged) = (s0.pool.mode, s0.pool.modeDamaged)
        ∧ (t.fill.work, t.fill.pend, t.fill.pendFlag) = (s0.fill.work, s0.fill.pend, false)
        ∧ t.runState = .standby ∧ t.elapsed = 0 ∧ t.mem.autoRun = t.yardNow.autoRun ∧ t.cycle = ⟨0, t.yardNow.cyclePeriod, t.yardNow.cyclePeriod, 0⟩)
    ∧ (∀ s : State, Settled s → (s.mem.autoRun = false → exec .autoRun s = .next s)
      ∧ (s.mem.autoRun = true → 2 ≤ s.cycle.expiries → s.runState ≠ .run → s.runRefusal = none → ∃ t, exec .autoRun s = .next t
        ∧ t.runState = .run ∧ SameMoment { s with runState := .run, mem := { s.mem with autoRun := false } } t
        ∧ SameRecords s t ∧ SameSamples s t ∧ t.desk.lastAnswer = s.desk.lastAnswer)
      ∧ (s.mem.autoRun = true → 2 ≤ s.cycle.expiries → s.runState ≠ .run → s.holders = [] → exec .autoRun s = .next
        (({ s with mem := { s.mem with autoRun := false } } : State).notify .autoRunRefused .none (.pair 15 1))))
    ∧ ∀ s : State, Settled s → (s.elapsed < s.acct.openAcct.closeDue → exec .accountCloseDue s = .next s)
      ∧ (s.acct.openAcct.closeDue ≤ s.elapsed → s.acct.ring.length < 128 → ∃ t r, exec .accountCloseDue s = .next t
        ∧ t.acct.ring = s.acct.ring ++ [r] ∧ r.number = s.acct.openAcct.number ∧ r.stockClose = some s.stockSum
        ∧ (s.acct.openAcct.number + 1 < 4294967296 → t.acct.openAcct.number = s.acct.openAcct.number + 1)
        ∧ t.runState = s.runState ∧ t.clock = s.clock ∧ SameRecords s t)
      ∧ (s.acct.openAcct.closeDue ≤ s.elapsed → 128 ≤ s.acct.ring.length → s.minuteDue = false → s.acct.mergeRun = true →
        exec .accountCloseDue s = .next { s with acct := { s.acct with openAcct := { s.acct.openAcct with
          merged := min 255 (s.acct.openAcct.merged + 1), closeDue := s.acct.openAcct.closeDue + 60 * s.acct.openAcct.length } } })

end Statements
end

