-- ==== Sys2Proof/Laws/State.lean ====
section
/-! SUPPORT. One lemma per field per update of the state, true by rfl. -/

set_option Elab.async false

namespace Sys2Proof.Machine

@[simp] theorem State.hand_pending (s : State) (hs : List Handoff) : (s.hand hs).pending = s.pending := rfl
@[simp] theorem State.hand_handoffs (s : State) (hs : List Handoff) : (s.hand hs).handoffs = s.handoffs ++ hs := rfl
@[simp] theorem State.hand_free (s : State) (hs : List Handoff) : (s.hand hs).free = s.free := rfl
@[simp] theorem State.hand_elapsed (s : State) (hs : List Handoff) : (s.hand hs).elapsed = s.elapsed := rfl
@[simp] theorem State.hand_clock (s : State) (hs : List Handoff) : (s.hand hs).clock = s.clock := rfl
@[simp] theorem State.hand_minuteDue (s : State) (hs : List Handoff) : (s.hand hs).minuteDue = s.minuteDue := rfl
@[simp] theorem State.hand_runState (s : State) (hs : List Handoff) : (s.hand hs).runState = s.runState := rfl
@[simp] theorem State.hand_flags (s : State) (hs : List Handoff) : (s.hand hs).flags = s.flags := rfl
@[simp] theorem State.hand_yard (s : State) (hs : List Handoff) : (s.hand hs).yard = s.yard := rfl
@[simp] theorem State.hand_yardPresent (s : State) (hs : List Handoff) : (s.hand hs).yardPresent = s.yardPresent := rfl
@[simp] theorem State.hand_yardDamaged (s : State) (hs : List Handoff) : (s.hand hs).yardDamaged = s.yardDamaged := rfl
@[simp] theorem State.hand_holders (s : State) (hs : List Handoff) : (s.hand hs).holders = s.holders := rfl
@[simp] theorem State.hand_rateDue (s : State) (hs : List Handoff) : (s.hand hs).rateDue = s.rateDue := rfl
@[simp] theorem State.hand_valves (s : State) (hs : List Handoff) : (s.hand hs).valves = s.valves := rfl
@[simp] theorem State.hand_fill (s : State) (hs : List Handoff) : (s.hand hs).fill = s.fill := rfl
@[simp] theorem State.hand_draw (s : State) (hs : List Handoff) : (s.hand hs).draw = s.draw := rfl
@[simp] theorem State.hand_districts (s : State) (hs : List Handoff) : (s.hand hs).districts = s.districts := rfl
@[simp] theorem State.hand_boosters (s : State) (hs : List Handoff) : (s.hand hs).boosters = s.boosters := rfl
@[simp] theorem State.hand_pool (s : State) (hs : List Handoff) : (s.hand hs).pool = s.pool := rfl
@[simp] theorem State.hand_meters (s : State) (hs : List Handoff) : (s.hand hs).meters = s.meters := rfl
@[simp] theorem State.hand_acct (s : State) (hs : List Handoff) : (s.hand hs).acct = s.acct := rfl
@[simp] theorem State.hand_lines (s : State) (hs : List Handoff) : (s.hand hs).lines = s.lines := rfl
@[simp] theorem State.hand_dir (s : State) (hs : List Handoff) : (s.hand hs).dir = s.dir := rfl
@[simp] theorem State.hand_relay (s : State) (hs : List Handoff) : (s.hand hs).relay = s.relay := rfl
@[simp] theorem State.hand_polls (s : State) (hs : List Handoff) : (s.hand hs).polls = s.polls := rfl
@[simp] theorem State.hand_pollHoles (s : State) (hs : List Handoff) : (s.hand hs).pollHoles = s.pollHoles := rfl
@[simp] theorem State.hand_cycle (s : State) (hs : List Handoff) : (s.hand hs).cycle = s.cycle := rfl
@[simp] theorem State.hand_desk (s : State) (hs : List Handoff) : (s.hand hs).desk = s.desk := rfl
@[simp] theorem State.hand_mem (s : State) (hs : List Handoff) : (s.hand hs).mem = s.mem := rfl

@[simp] theorem State.setHolder_pending (s : State) (n : Nat) (x : Holder) : (s.setHolder n x).pending = s.pending := rfl
@[simp] theorem State.setHolder_handoffs (s : State) (n : Nat) (x : Holder) : (s.setHolder n x).handoffs = s.handoffs := rfl
@[simp] theorem State.setHolder_free (s : State) (n : Nat) (x : Holder) : (s.setHolder n x).free = s.free := rfl
@[simp] theorem State.setHolder_elapsed (s : State) (n : Nat) (x : Holder) : (s.setHolder n x).elapsed = s.elapsed := rfl
@[simp] theorem State.setHolder_clock (s : State) (n : Nat) (x : Holder) : (s.setHolder n x).clock = s.clock := rfl
@[simp] theorem State.setHolder_minuteDue (s : State) (n : Nat) (x : Holder) : (s.setHolder n x).minuteDue = s.minuteDue := rfl
@[simp] theorem State.setHolder_runState (s : State) (n : Nat) (x : Holder) : (s.setHolder n x).runState = s.runState := rfl
@[simp] theorem State.setHolder_flags (s : State) (n : Nat) (x : Holder) : (s.setHolder n x).flags = s.flags := rfl
@[simp] theorem State.setHolder_yard (s : State) (n : Nat) (x : Holder) : (s.setHolder n x).yard = s.yard := rfl
@[simp] theorem State.setHolder_yardPresent (s : State) (n : Nat) (x : Holder) : (s.setHolder n x).yardPresent = s.yardPresent := rfl
@[simp] theorem State.setHolder_yardDamaged (s : State) (n : Nat) (x : Holder) : (s.setHolder n x).yardDamaged = s.yardDamaged := rfl
@[simp] theorem State.setHolder_holders (s : State) (n : Nat) (x : Holder) : (s.setHolder n x).holders = tblPut s.holders n x := rfl
@[simp] theorem State.setHolder_rateDue (s : State) (n : Nat) (x : Holder) : (s.setHolder n x).rateDue = s.rateDue := rfl
@[simp] theorem State.setHolder_valves (s : State) (n : Nat) (x : Holder) : (s.setHolder n x).valves = s.valves := rfl
@[simp] theorem State.setHolder_fill (s : State) (n : Nat) (x : Holder) : (s.setHolder n x).fill = s.fill := rfl
@[simp] theorem State.setHolder_draw (s : State) (n : Nat) (x : Holder) : (s.setHolder n x).draw = s.draw := rfl
@[simp] theorem State.setHolder_districts (s : State) (n : Nat) (x : Holder) : (s.setHolder n x).districts = s.districts := rfl
@[simp] theorem State.setHolder_boosters (s : State) (n : Nat) (x : Holder) : (s.setHolder n x).boosters = s.boosters := rfl
@[simp] theorem State.setHolder_pool (s : State) (n : Nat) (x : Holder) : (s.setHolder n x).pool = s.pool := rfl
@[simp] theorem State.setHolder_meters (s : State) (n : Nat) (x : Holder) : (s.setHolder n x).meters = s.meters := rfl
@[simp] theorem State.setHolder_acct (s : State) (n : Nat) (x : Holder) : (s.setHolder n x).acct = s.acct := rfl
@[simp] theorem State.setHolder_lines (s : State) (n : Nat) (x : Holder) : (s.setHolder n x).lines = s.lines := rfl
@[simp] theorem State.setHolder_dir (s : State) (n : Nat) (x : Holder) : (s.setHolder n x).dir = s.dir := rfl
@[simp] theorem State.setHolder_relay (s : State) (n : Nat) (x : Holder) : (s.setHolder n x).relay = s.relay := rfl
@[simp] theorem State.setHolder_polls (s : State) (n : Nat) (x : Holder) : (s.setHolder n x).polls = s.polls := rfl
@[simp] theorem State.setHolder_pollHoles (s : State) (n : Nat) (x : Holder) : (s.setHolder n x).pollHoles = s.pollHoles := rfl
@[simp] theorem State.setHolder_cycle (s : State) (n : Nat) (x : Holder) : (s.setHolder n x).cycle = s.cycle := rfl
@[simp] theorem State.setHolder_desk (s : State) (n : Nat) (x : Holder) : (s.setHolder n x).desk = s.desk := rfl
@[simp] theorem State.setHolder_mem (s : State) (n : Nat) (x : Holder) : (s.setHolder n x).mem = s.mem := rfl

@[simp] theorem State.setValve_pending (s : State) (n : Nat) (x : Valve) : (s.setValve n x).pending = s.pending := rfl
@[simp] theorem State.setValve_handoffs (s : State) (n : Nat) (x : Valve) : (s.setValve n x).handoffs = s.handoffs := rfl
@[simp] theorem State.setValve_free (s : State) (n : Nat) (x : Valve) : (s.setValve n x).free = s.free := rfl
@[simp] theorem State.setValve_elapsed (s : State) (n : Nat) (x : Valve) : (s.setValve n x).elapsed = s.elapsed := rfl
@[simp] theorem State.setValve_clock (s : State) (n : Nat) (x : Valve) : (s.setValve n x).clock = s.clock := rfl
@[simp] theorem State.setValve_minuteDue (s : State) (n : Nat) (x : Valve) : (s.setValve n x).minuteDue = s.minuteDue := rfl
@[simp] theorem State.setValve_runState (s : State) (n : Nat) (x : Valve) : (s.setValve n x).runState = s.runState := rfl
@[simp] theorem State.setValve_flags (s : State) (n : Nat) (x : Valve) : (s.setValve n x).flags = s.flags := rfl
@[simp] theorem State.setValve_yard (s : State) (n : Nat) (x : Valve) : (s.setValve n x).yard = s.yard := rfl
@[simp] theorem State.setValve_yardPresent (s : State) (n : Nat) (x : Valve) : (s.setValve n x).yardPresent = s.yardPresent := rfl
@[simp] theorem State.setValve_yardDamaged (s : State) (n : Nat) (x : Valve) : (s.setValve n x).yardDamaged = s.yardDamaged := rfl
@[simp] theorem State.setValve_holders (s : State) (n : Nat) (x : Valve) : (s.setValve n x).holders = s.holders := rfl
@[simp] theorem State.setValve_rateDue (s : State) (n : Nat) (x : Valve) : (s.setValve n x).rateDue = s.rateDue := rfl
@[simp] theorem State.setValve_valves (s : State) (n : Nat) (x : Valve) : (s.setValve n x).valves = tblPut s.valves n x := rfl
@[simp] theorem State.setValve_fill (s : State) (n : Nat) (x : Valve) : (s.setValve n x).fill = s.fill := rfl
@[simp] theorem State.setValve_draw (s : State) (n : Nat) (x : Valve) : (s.setValve n x).draw = s.draw := rfl
@[simp] theorem State.setValve_districts (s : State) (n : Nat) (x : Valve) : (s.setValve n x).districts = s.districts := rfl
@[simp] theorem State.setValve_boosters (s : State) (n : Nat) (x : Valve) : (s.setValve n x).boosters = s.boosters := rfl
@[simp] theorem State.setValve_pool (s : State) (n : Nat) (x : Valve) : (s.setValve n x).pool = s.pool := rfl
@[simp] theorem State.setValve_meters (s : State) (n : Nat) (x : Valve) : (s.setValve n x).meters = s.meters := rfl
@[simp] theorem State.setValve_acct (s : State) (n : Nat) (x : Valve) : (s.setValve n x).acct = s.acct := rfl
@[simp] theorem State.setValve_lines (s : State) (n : Nat) (x : Valve) : (s.setValve n x).lines = s.lines := rfl
@[simp] theorem State.setValve_dir (s : State) (n : Nat) (x : Valve) : (s.setValve n x).dir = s.dir := rfl
@[simp] theorem State.setValve_relay (s : State) (n : Nat) (x : Valve) : (s.setValve n x).relay = s.relay := rfl
@[simp] theorem State.setValve_polls (s : State) (n : Nat) (x : Valve) : (s.setValve n x).polls = s.polls := rfl
@[simp] theorem State.setValve_pollHoles (s : State) (n : Nat) (x : Valve) : (s.setValve n x).pollHoles = s.pollHoles := rfl
@[simp] theorem State.setValve_cycle (s : State) (n : Nat) (x : Valve) : (s.setValve n x).cycle = s.cycle := rfl
@[simp] theorem State.setValve_desk (s : State) (n : Nat) (x : Valve) : (s.setValve n x).desk = s.desk := rfl
@[simp] theorem State.setValve_mem (s : State) (n : Nat) (x : Valve) : (s.setValve n x).mem = s.mem := rfl

@[simp] theorem State.setDistrict_pending (s : State) (n : Nat) (x : District) : (s.setDistrict n x).pending = s.pending := rfl
@[simp] theorem State.setDistrict_handoffs (s : State) (n : Nat) (x : District) : (s.setDistrict n x).handoffs = s.handoffs := rfl
@[simp] theorem State.setDistrict_free (s : State) (n : Nat) (x : District) : (s.setDistrict n x).free = s.free := rfl
@[simp] theorem State.setDistrict_elapsed (s : State) (n : Nat) (x : District) : (s.setDistrict n x).elapsed = s.elapsed := rfl
@[simp] theorem State.setDistrict_clock (s : State) (n : Nat) (x : District) : (s.setDistrict n x).clock = s.clock := rfl
@[simp] theorem State.setDistrict_minuteDue (s : State) (n : Nat) (x : District) : (s.setDistrict n x).minuteDue = s.minuteDue := rfl
@[simp] theorem State.setDistrict_runState (s : State) (n : Nat) (x : District) : (s.setDistrict n x).runState = s.runState := rfl
@[simp] theorem State.setDistrict_flags (s : State) (n : Nat) (x : District) : (s.setDistrict n x).flags = s.flags := rfl
@[simp] theorem State.setDistrict_yard (s : State) (n : Nat) (x : District) : (s.setDistrict n x).yard = s.yard := rfl
@[simp] theorem State.setDistrict_yardPresent (s : State) (n : Nat) (x : District) : (s.setDistrict n x).yardPresent = s.yardPresent := rfl
@[simp] theorem State.setDistrict_yardDamaged (s : State) (n : Nat) (x : District) : (s.setDistrict n x).yardDamaged = s.yardDamaged := rfl
@[simp] theorem State.setDistrict_holders (s : State) (n : Nat) (x : District) : (s.setDistrict n x).holders = s.holders := rfl
@[simp] theorem State.setDistrict_rateDue (s : State) (n : Nat) (x : District) : (s.setDistrict n x).rateDue = s.rateDue := rfl
@[simp] theorem State.setDistrict_valves (s : State) (n : Nat) (x : District) : (s.setDistrict n x).valves = s.valves := rfl
@[simp] theorem State.setDistrict_fill (s : State) (n : Nat) (x : District) : (s.setDistrict n x).fill = s.fill := rfl
@[simp] theorem State.setDistrict_draw (s : State) (n : Nat) (x : District) : (s.setDistrict n x).draw = s.draw := rfl
@[simp] theorem State.setDistrict_districts (s : State) (n : Nat) (x : District) : (s.setDistrict n x).districts = tblPut s.districts n x := rfl
@[simp] theorem State.setDistrict_boosters (s : State) (n : Nat) (x : District) : (s.setDistrict n x).boosters = s.boosters := rfl
@[simp] theorem State.setDistrict_pool (s : State) (n : Nat) (x : District) : (s.setDistrict n x).pool = s.pool := rfl
@[simp] theorem State.setDistrict_meters (s : State) (n : Nat) (x : District) : (s.setDistrict n x).meters = s.meters := rfl
@[simp] theorem State.setDistrict_acct (s : State) (n : Nat) (x : District) : (s.setDistrict n x).acct = s.acct := rfl
@[simp] theorem State.setDistrict_lines (s : State) (n : Nat) (x : District) : (s.setDistrict n x).lines = s.lines := rfl
@[simp] theorem State.setDistrict_dir (s : State) (n : Nat) (x : District) : (s.setDistrict n x).dir = s.dir := rfl
@[simp] theorem State.setDistrict_relay (s : State) (n : Nat) (x : District) : (s.setDistrict n x).relay = s.relay := rfl
@[simp] theorem State.setDistrict_polls (s : State) (n : Nat) (x : District) : (s.setDistrict n x).polls = s.polls := rfl
@[simp] theorem State.setDistrict_pollHoles (s : State) (n : Nat) (x : District) : (s.setDistrict n x).pollHoles = s.pollHoles := rfl
@[simp] theorem State.setDistrict_cycle (s : State) (n : Nat) (x : District) : (s.setDistrict n x).cycle = s.cycle := rfl
@[simp] theorem State.setDistrict_desk (s : State) (n : Nat) (x : District) : (s.setDistrict n x).desk = s.desk := rfl
@[simp] theorem State.setDistrict_mem (s : State) (n : Nat) (x : District) : (s.setDistrict n x).mem = s.mem := rfl

@[simp] theorem State.setBooster_pending (s : State) (n : Nat) (x : Booster) : (s.setBooster n x).pending = s.pending := rfl
@[simp] theorem State.setBooster_handoffs (s : State) (n : Nat) (x : Booster) : (s.setBooster n x).handoffs = s.handoffs := rfl
@[simp] theorem State.setBooster_free (s : State) (n : Nat) (x : Booster) : (s.setBooster n x).free = s.free := rfl
@[simp] theorem State.setBooster_elapsed (s : State) (n : Nat) (x : Booster) : (s.setBooster n x).elapsed = s.elapsed := rfl
@[simp] theorem State.setBooster_clock (s : State) (n : Nat) (x : Booster) : (s.setBooster n x).clock = s.clock := rfl
@[simp] theorem State.setBooster_minuteDue (s : State) (n : Nat) (x : Booster) : (s.setBooster n x).minuteDue = s.minuteDue := rfl
@[simp] theorem State.setBooster_runState (s : State) (n : Nat) (x : Booster) : (s.setBooster n x).runState = s.runState := rfl
@[simp] theorem State.setBooster_flags (s : State) (n : Nat) (x : Booster) : (s.setBooster n x).flags = s.flags := rfl
@[simp] theorem State.setBooster_yard (s : State) (n : Nat) (x : Booster) : (s.setBooster n x).yard = s.yard := rfl
@[simp] theorem State.setBooster_yardPresent (s : State) (n : Nat) (x : Booster) : (s.setBooster n x).yardPresent = s.yardPresent := rfl
@[simp] theorem State.setBooster_yardDamaged (s : State) (n : Nat) (x : Booster) : (s.setBooster n x).yardDamaged = s.yardDamaged := rfl
@[simp] theorem State.setBooster_holders (s : State) (n : Nat) (x : Booster) : (s.setBooster n x).holders = s.holders := rfl
@[simp] theorem State.setBooster_rateDue (s : State) (n : Nat) (x : Booster) : (s.setBooster n x).rateDue = s.rateDue := rfl
@[simp] theorem State.setBooster_valves (s : State) (n : Nat) (x : Booster) : (s.setBooster n x).valves = s.valves := rfl
@[simp] theorem State.setBooster_fill (s : State) (n : Nat) (x : Booster) : (s.setBooster n x).fill = s.fill := rfl
@[simp] theorem State.setBooster_draw (s : State) (n : Nat) (x : Booster) : (s.setBooster n x).draw = s.draw := rfl
@[simp] theorem State.setBooster_districts (s : State) (n : Nat) (x : Booster) : (s.setBooster n x).districts = s.districts := rfl
@[simp] theorem State.setBooster_boosters (s : State) (n : Nat) (x : Booster) : (s.setBooster n x).boosters = tblPut s.boosters n x := rfl
@[simp] theorem State.setBooster_pool (s : State) (n : Nat) (x : Booster) : (s.setBooster n x).pool = s.pool := rfl
@[simp] theorem State.setBooster_meters (s : State) (n : Nat) (x : Booster) : (s.setBooster n x).meters = s.meters := rfl
@[simp] theorem State.setBooster_acct (s : State) (n : Nat) (x : Booster) : (s.setBooster n x).acct = s.acct := rfl
@[simp] theorem State.setBooster_lines (s : State) (n : Nat) (x : Booster) : (s.setBooster n x).lines = s.lines := rfl
@[simp] theorem State.setBooster_dir (s : State) (n : Nat) (x : Booster) : (s.setBooster n x).dir = s.dir := rfl
@[simp] theorem State.setBooster_relay (s : State) (n : Nat) (x : Booster) : (s.setBooster n x).relay = s.relay := rfl
@[simp] theorem State.setBooster_polls (s : State) (n : Nat) (x : Booster) : (s.setBooster n x).polls = s.polls := rfl
@[simp] theorem State.setBooster_pollHoles (s : State) (n : Nat) (x : Booster) : (s.setBooster n x).pollHoles = s.pollHoles := rfl
@[simp] theorem State.setBooster_cycle (s : State) (n : Nat) (x : Booster) : (s.setBooster n x).cycle = s.cycle := rfl
@[simp] theorem State.setBooster_desk (s : State) (n : Nat) (x : Booster) : (s.setBooster n x).desk = s.desk := rfl
@[simp] theorem State.setBooster_mem (s : State) (n : Nat) (x : Booster) : (s.setBooster n x).mem = s.mem := rfl

@[simp] theorem State.setPoll_pending (s : State) (n : Nat) (x : PollPos) : (s.setPoll n x).pending = s.pending := rfl
@[simp] theorem State.setPoll_handoffs (s : State) (n : Nat) (x : PollPos) : (s.setPoll n x).handoffs = s.handoffs := rfl
@[simp] theorem State.setPoll_free (s : State) (n : Nat) (x : PollPos) : (s.setPoll n x).free = s.free := rfl
@[simp] theorem State.setPoll_elapsed (s : State) (n : Nat) (x : PollPos) : (s.setPoll n x).elapsed = s.elapsed := rfl
@[simp] theorem State.setPoll_clock (s : State) (n : Nat) (x : PollPos) : (s.setPoll n x).clock = s.clock := rfl
@[simp] theorem State.setPoll_minuteDue (s : State) (n : Nat) (x : PollPos) : (s.setPoll n x).minuteDue = s.minuteDue := rfl
@[simp] theorem State.setPoll_runState (s : State) (n : Nat) (x : PollPos) : (s.setPoll n x).runState = s.runState := rfl
@[simp] theorem State.setPoll_flags (s : State) (n : Nat) (x : PollPos) : (s.setPoll n x).flags = s.flags := rfl
@[simp] theorem State.setPoll_yard (s : State) (n : Nat) (x : PollPos) : (s.setPoll n x).yard = s.yard := rfl
@[simp] theorem State.setPoll_yardPresent (s : State) (n : Nat) (x : PollPos) : (s.setPoll n x).yardPresent = s.yardPresent := rfl
@[simp] theorem State.setPoll_yardDamaged (s : State) (n : Nat) (x : PollPos) : (s.setPoll n x).yardDamaged = s.yardDamaged := rfl
@[simp] theorem State.setPoll_holders (s : State) (n : Nat) (x : PollPos) : (s.setPoll n x).holders = s.holders := rfl
@[simp] theorem State.setPoll_rateDue (s : State) (n : Nat) (x : PollPos) : (s.setPoll n x).rateDue = s.rateDue := rfl
@[simp] theorem State.setPoll_valves (s : State) (n : Nat) (x : PollPos) : (s.setPoll n x).valves = s.valves := rfl
@[simp] theorem State.setPoll_fill (s : State) (n : Nat) (x : PollPos) : (s.setPoll n x).fill = s.fill := rfl
@[simp] theorem State.setPoll_draw (s : State) (n : Nat) (x : PollPos) : (s.setPoll n x).draw = s.draw := rfl
@[simp] theorem State.setPoll_districts (s : State) (n : Nat) (x : PollPos) : (s.setPoll n x).districts = s.districts := rfl
@[simp] theorem State.setPoll_boosters (s : State) (n : Nat) (x : PollPos) : (s.setPoll n x).boosters = s.boosters := rfl
@[simp] theorem State.setPoll_pool (s : State) (n : Nat) (x : PollPos) : (s.setPoll n x).pool = s.pool := rfl
@[simp] theorem State.setPoll_meters (s : State) (n : Nat) (x : PollPos) : (s.setPoll n x).meters = s.meters := rfl
@[simp] theorem State.setPoll_acct (s : State) (n : Nat) (x : PollPos) : (s.setPoll n x).acct = s.acct := rfl
@[simp] theorem State.setPoll_lines (s : State) (n : Nat) (x : PollPos) : (s.setPoll n x).lines = s.lines := rfl
@[simp] theorem State.setPoll_dir (s : State) (n : Nat) (x : PollPos) : (s.setPoll n x).dir = s.dir := rfl
@[simp] theorem State.setPoll_relay (s : State) (n : Nat) (x : PollPos) : (s.setPoll n x).relay = s.relay := rfl
@[simp] theorem State.setPoll_polls (s : State) (n : Nat) (x : PollPos) : (s.setPoll n x).polls = tblPut s.polls n x := rfl
@[simp] theorem State.setPoll_pollHoles (s : State) (n : Nat) (x : PollPos) : (s.setPoll n x).pollHoles = s.pollHoles := rfl
@[simp] theorem State.setPoll_cycle (s : State) (n : Nat) (x : PollPos) : (s.setPoll n x).cycle = s.cycle := rfl
@[simp] theorem State.setPoll_desk (s : State) (n : Nat) (x : PollPos) : (s.setPoll n x).desk = s.desk := rfl
@[simp] theorem State.setPoll_mem (s : State) (n : Nat) (x : PollPos) : (s.setPoll n x).mem = s.mem := rfl

@[simp] theorem State.setEntry_pending (s : State) (n : Nat) (x : DirEntry) : (s.setEntry n x).pending = s.pending := rfl
@[simp] theorem State.setEntry_handoffs (s : State) (n : Nat) (x : DirEntry) : (s.setEntry n x).handoffs = s.handoffs := rfl
@[simp] theorem State.setEntry_free (s : State) (n : Nat) (x : DirEntry) : (s.setEntry n x).free = s.free := rfl
@[simp] theorem State.setEntry_elapsed (s : State) (n : Nat) (x : DirEntry) : (s.setEntry n x).elapsed = s.elapsed := rfl
@[simp] theorem State.setEntry_clock (s : State) (n : Nat) (x : DirEntry) : (s.setEntry n x).clock = s.clock := rfl
@[simp] theorem State.setEntry_minuteDue (s : State) (n : Nat) (x : DirEntry) : (s.setEntry n x).minuteDue = s.minuteDue := rfl
@[simp] theorem State.setEntry_runState (s : State) (n : Nat) (x : DirEntry) : (s.setEntry n x).runState = s.runState := rfl
@[simp] theorem State.setEntry_flags (s : State) (n : Nat) (x : DirEntry) : (s.setEntry n x).flags = s.flags := rfl
@[simp] theorem State.setEntry_yard (s : State) (n : Nat) (x : DirEntry) : (s.setEntry n x).yard = s.yard := rfl
@[simp] theorem State.setEntry_yardPresent (s : State) (n : Nat) (x : DirEntry) : (s.setEntry n x).yardPresent = s.yardPresent := rfl
@[simp] theorem State.setEntry_yardDamaged (s : State) (n : Nat) (x : DirEntry) : (s.setEntry n x).yardDamaged = s.yardDamaged := rfl
@[simp] theorem State.setEntry_holders (s : State) (n : Nat) (x : DirEntry) : (s.setEntry n x).holders = s.holders := rfl
@[simp] theorem State.setEntry_rateDue (s : State) (n : Nat) (x : DirEntry) : (s.setEntry n x).rateDue = s.rateDue := rfl
@[simp] theorem State.setEntry_valves (s : State) (n : Nat) (x : DirEntry) : (s.setEntry n x).valves = s.valves := rfl
@[simp] theorem State.setEntry_fill (s : State) (n : Nat) (x : DirEntry) : (s.setEntry n x).fill = s.fill := rfl
@[simp] theorem State.setEntry_draw (s : State) (n : Nat) (x : DirEntry) : (s.setEntry n x).draw = s.draw := rfl
@[simp] theorem State.setEntry_districts (s : State) (n : Nat) (x : DirEntry) : (s.setEntry n x).districts = s.districts := rfl
@[simp] theorem State.setEntry_boosters (s : State) (n : Nat) (x : DirEntry) : (s.setEntry n x).boosters = s.boosters := rfl
@[simp] theorem State.setEntry_pool (s : State) (n : Nat) (x : DirEntry) : (s.setEntry n x).pool = s.pool := rfl
@[simp] theorem State.setEntry_meters (s : State) (n : Nat) (x : DirEntry) : (s.setEntry n x).meters = s.meters := rfl
@[simp] theorem State.setEntry_acct (s : State) (n : Nat) (x : DirEntry) : (s.setEntry n x).acct = s.acct := rfl
@[simp] theorem State.setEntry_lines (s : State) (n : Nat) (x : DirEntry) : (s.setEntry n x).lines = s.lines := rfl
@[simp] theorem State.setEntry_dir (s : State) (n : Nat) (x : DirEntry) : (s.setEntry n x).dir = tblPut s.dir n x := rfl
@[simp] theorem State.setEntry_relay (s : State) (n : Nat) (x : DirEntry) : (s.setEntry n x).relay = s.relay := rfl
@[simp] theorem State.setEntry_polls (s : State) (n : Nat) (x : DirEntry) : (s.setEntry n x).polls = s.polls := rfl
@[simp] theorem State.setEntry_pollHoles (s : State) (n : Nat) (x : DirEntry) : (s.setEntry n x).pollHoles = s.pollHoles := rfl
@[simp] theorem State.setEntry_cycle (s : State) (n : Nat) (x : DirEntry) : (s.setEntry n x).cycle = s.cycle := rfl
@[simp] theorem State.setEntry_desk (s : State) (n : Nat) (x : DirEntry) : (s.setEntry n x).desk = s.desk := rfl
@[simp] theorem State.setEntry_mem (s : State) (n : Nat) (x : DirEntry) : (s.setEntry n x).mem = s.mem := rfl

@[simp] theorem State.setMeter_pending (s : State) (n : Nat) (x : Meter) : (s.setMeter n x).pending = s.pending := rfl
@[simp] theorem State.setMeter_handoffs (s : State) (n : Nat) (x : Meter) : (s.setMeter n x).handoffs = s.handoffs := rfl
@[simp] theorem State.setMeter_free (s : State) (n : Nat) (x : Meter) : (s.setMeter n x).free = s.free := rfl
@[simp] theorem State.setMeter_elapsed (s : State) (n : Nat) (x : Meter) : (s.setMeter n x).elapsed = s.elapsed := rfl
@[simp] theorem State.setMeter_clock (s : State) (n : Nat) (x : Meter) : (s.setMeter n x).clock = s.clock := rfl
@[simp] theorem State.setMeter_minuteDue (s : State) (n : Nat) (x : Meter) : (s.setMeter n x).minuteDue = s.minuteDue := rfl
@[simp] theorem State.setMeter_runState (s : State) (n : Nat) (x : Meter) : (s.setMeter n x).runState = s.runState := rfl
@[simp] theorem State.setMeter_flags (s : State) (n : Nat) (x : Meter) : (s.setMeter n x).flags = s.flags := rfl
@[simp] theorem State.setMeter_yard (s : State) (n : Nat) (x : Meter) : (s.setMeter n x).yard = s.yard := rfl
@[simp] theorem State.setMeter_yardPresent (s : State) (n : Nat) (x : Meter) : (s.setMeter n x).yardPresent = s.yardPresent := rfl
@[simp] theorem State.setMeter_yardDamaged (s : State) (n : Nat) (x : Meter) : (s.setMeter n x).yardDamaged = s.yardDamaged := rfl
@[simp] theorem State.setMeter_holders (s : State) (n : Nat) (x : Meter) : (s.setMeter n x).holders = s.holders := rfl
@[simp] theorem State.setMeter_rateDue (s : State) (n : Nat) (x : Meter) : (s.setMeter n x).rateDue = s.rateDue := rfl
@[simp] theorem State.setMeter_valves (s : State) (n : Nat) (x : Meter) : (s.setMeter n x).valves = s.valves := rfl
@[simp] theorem State.setMeter_fill (s : State) (n : Nat) (x : Meter) : (s.setMeter n x).fill = s.fill := rfl
@[simp] theorem State.setMeter_draw (s : State) (n : Nat) (x : Meter) : (s.setMeter n x).draw = s.draw := rfl
@[simp] theorem State.setMeter_districts (s : State) (n : Nat) (x : Meter) : (s.setMeter n x).districts = s.districts := rfl
@[simp] theorem State.setMeter_boosters (s : State) (n : Nat) (x : Meter) : (s.setMeter n x).boosters = s.boosters := rfl
@[simp] theorem State.setMeter_pool (s : State) (n : Nat) (x : Meter) : (s.setMeter n x).pool = s.pool := rfl
@[simp] theorem State.setMeter_meters (s : State) (n : Nat) (x : Meter) : (s.setMeter n x).meters = tblPut s.meters n x := rfl
@[simp] theorem State.setMeter_acct (s : State) (n : Nat) (x : Meter) : (s.setMeter n x).acct = s.acct := rfl
@[simp] theorem State.setMeter_lines (s : State) (n : Nat) (x : Meter) : (s.setMeter n x).lines = s.lines := rfl
@[simp] theorem State.setMeter_dir (s : State) (n : Nat) (x : Meter) : (s.setMeter n x).dir = s.dir := rfl
@[simp] theorem State.setMeter_relay (s : State) (n : Nat) (x : Meter) : (s.setMeter n x).relay = s.relay := rfl
@[simp] theorem State.setMeter_polls (s : State) (n : Nat) (x : Meter) : (s.setMeter n x).polls = s.polls := rfl
@[simp] theorem State.setMeter_pollHoles (s : State) (n : Nat) (x : Meter) : (s.setMeter n x).pollHoles = s.pollHoles := rfl
@[simp] theorem State.setMeter_cycle (s : State) (n : Nat) (x : Meter) : (s.setMeter n x).cycle = s.cycle := rfl
@[simp] theorem State.setMeter_desk (s : State) (n : Nat) (x : Meter) : (s.setMeter n x).desk = s.desk := rfl
@[simp] theorem State.setMeter_mem (s : State) (n : Nat) (x : Meter) : (s.setMeter n x).mem = s.mem := rfl

@[simp] theorem State.removeEntry_pending (s : State) (n : Nat) : (s.removeEntry n).pending = s.pending := rfl
@[simp] theorem State.removeEntry_handoffs (s : State) (n : Nat) : (s.removeEntry n).handoffs = s.handoffs := rfl
@[simp] theorem State.removeEntry_free (s : State) (n : Nat) : (s.removeEntry n).free = s.free := rfl
@[simp] theorem State.removeEntry_elapsed (s : State) (n : Nat) : (s.removeEntry n).elapsed = s.elapsed := rfl
@[simp] theorem State.removeEntry_clock (s : State) (n : Nat) : (s.removeEntry n).clock = s.clock := rfl
@[simp] theorem State.removeEntry_minuteDue (s : State) (n : Nat) : (s.removeEntry n).minuteDue = s.minuteDue := rfl
@[simp] theorem State.removeEntry_runState (s : State) (n : Nat) : (s.removeEntry n).runState = s.runState := rfl
@[simp] theorem State.removeEntry_flags (s : State) (n : Nat) : (s.removeEntry n).flags = s.flags := rfl
@[simp] theorem State.removeEntry_yard (s : State) (n : Nat) : (s.removeEntry n).yard = s.yard := rfl
@[simp] theorem State.removeEntry_yardPresent (s : State) (n : Nat) : (s.removeEntry n).yardPresent = s.yardPresent := rfl
@[simp] theorem State.removeEntry_yardDamaged (s : State) (n : Nat) : (s.removeEntry n).yardDamaged = s.yardDamaged := rfl
@[simp] theorem State.removeEntry_holders (s : State) (n : Nat) : (s.removeEntry n).holders = s.holders := rfl
@[simp] theorem State.removeEntry_rateDue (s : State) (n : Nat) : (s.removeEntry n).rateDue = s.rateDue := rfl
@[simp] theorem State.removeEntry_valves (s : State) (n : Nat) : (s.removeEntry n).valves = s.valves := rfl
@[simp] theorem State.removeEntry_fill (s : State) (n : Nat) : (s.removeEntry n).fill = s.fill := rfl
@[simp] theorem State.removeEntry_draw (s : State) (n : Nat) : (s.removeEntry n).draw = s.draw := rfl
@[simp] theorem State.removeEntry_districts (s : State) (n : Nat) : (s.removeEntry n).districts = s.districts := rfl
@[simp] theorem State.removeEntry_boosters (s : State) (n : Nat) : (s.removeEntry n).boosters = s.boosters := rfl
@[simp] theorem State.removeEntry_pool (s : State) (n : Nat) : (s.removeEntry n).pool = s.pool := rfl
@[simp] theorem State.removeEntry_meters (s : State) (n : Nat) : (s.removeEntry n).meters = s.meters := rfl
@[simp] theorem State.removeEntry_acct (s : State) (n : Nat) : (s.removeEntry n).acct = s.acct := rfl
@[simp] theorem State.removeEntry_lines (s : State) (n : Nat) : (s.removeEntry n).lines = s.lines := rfl
@[simp] theorem State.removeEntry_dir (s : State) (n : Nat) : (s.removeEntry n).dir = tblDel s.dir n := rfl
@[simp] theorem State.removeEntry_relay (s : State) (n : Nat) : (s.removeEntry n).relay = s.relay := rfl
@[simp] theorem State.removeEntry_polls (s : State) (n : Nat) : (s.removeEntry n).polls = s.polls := rfl
@[simp] theorem State.removeEntry_pollHoles (s : State) (n : Nat) : (s.removeEntry n).pollHoles = s.pollHoles := rfl
@[simp] theorem State.removeEntry_cycle (s : State) (n : Nat) : (s.removeEntry n).cycle = s.cycle := rfl
@[simp] theorem State.removeEntry_desk (s : State) (n : Nat) : (s.removeEntry n).desk = s.desk := rfl
@[simp] theorem State.removeEntry_mem (s : State) (n : Nat) : (s.removeEntry n).mem = s.mem := rfl

@[simp] theorem State.modFill_pending (s : State) (f : Fill → Fill) : (s.modFill f).pending = s.pending := rfl
@[simp] theorem State.modFill_handoffs (s : State) (f : Fill → Fill) : (s.modFill f).handoffs = s.handoffs := rfl
@[simp] theorem State.modFill_free (s : State) (f : Fill → Fill) : (s.modFill f).free = s.free := rfl
@[simp] theorem State.modFill_elapsed (s : State) (f : Fill → Fill) : (s.modFill f).elapsed = s.elapsed := rfl
@[simp] theorem State.modFill_clock (s : State) (f : Fill → Fill) : (s.modFill f).clock = s.clock := rfl
@[simp] theorem State.modFill_minuteDue (s : State) (f : Fill → Fill) : (s.modFill f).minuteDue = s.minuteDue := rfl
@[simp] theorem State.modFill_runState (s : State) (f : Fill → Fill) : (s.modFill f).runState = s.runState := rfl
@[simp] theorem State.modFill_flags (s : State) (f : Fill → Fill) : (s.modFill f).flags = s.flags := rfl
@[simp] theorem State.modFill_yard (s : State) (f : Fill → Fill) : (s.modFill f).yard = s.yard := rfl
@[simp] theorem State.modFill_yardPresent (s : State) (f : Fill → Fill) : (s.modFill f).yardPresent = s.yardPresent := rfl
@[simp] theorem State.modFill_yardDamaged (s : State) (f : Fill → Fill) : (s.modFill f).yardDamaged = s.yardDamaged := rfl
@[simp] theorem State.modFill_holders (s : State) (f : Fill → Fill) : (s.modFill f).holders = s.holders := rfl
@[simp] theorem State.modFill_rateDue (s : State) (f : Fill → Fill) : (s.modFill f).rateDue = s.rateDue := rfl
@[simp] theorem State.modFill_valves (s : State) (f : Fill → Fill) : (s.modFill f).valves = s.valves := rfl
@[simp] theorem State.modFill_fill (s : State) (f : Fill → Fill) : (s.modFill f).fill = f s.fill := rfl
@[simp] theorem State.modFill_draw (s : State) (f : Fill → Fill) : (s.modFill f).draw = s.draw := rfl
@[simp] theorem State.modFill_districts (s : State) (f : Fill → Fill) : (s.modFill f).districts = s.districts := rfl
@[simp] theorem State.modFill_boosters (s : State) (f : Fill → Fill) : (s.modFill f).boosters = s.boosters := rfl
@[simp] theorem State.modFill_pool (s : State) (f : Fill → Fill) : (s.modFill f).pool = s.pool := rfl
@[simp] theorem State.modFill_meters (s : State) (f : Fill → Fill) : (s.modFill f).meters = s.meters := rfl
@[simp] theorem State.modFill_acct (s : State) (f : Fill → Fill) : (s.modFill f).acct = s.acct := rfl
@[simp] theorem State.modFill_lines (s : State) (f : Fill → Fill) : (s.modFill f).lines = s.lines := rfl
@[simp] theorem State.modFill_dir (s : State) (f : Fill → Fill) : (s.modFill f).dir = s.dir := rfl
@[simp] theorem State.modFill_relay (s : State) (f : Fill → Fill) : (s.modFill f).relay = s.relay := rfl
@[simp] theorem State.modFill_polls (s : State) (f : Fill → Fill) : (s.modFill f).polls = s.polls := rfl
@[simp] theorem State.modFill_pollHoles (s : State) (f : Fill → Fill) : (s.modFill f).pollHoles = s.pollHoles := rfl
@[simp] theorem State.modFill_cycle (s : State) (f : Fill → Fill) : (s.modFill f).cycle = s.cycle := rfl
@[simp] theorem State.modFill_desk (s : State) (f : Fill → Fill) : (s.modFill f).desk = s.desk := rfl
@[simp] theorem State.modFill_mem (s : State) (f : Fill → Fill) : (s.modFill f).mem = s.mem := rfl

@[simp] theorem State.modDraw_pending (s : State) (f : Draw → Draw) : (s.modDraw f).pending = s.pending := rfl
@[simp] theorem State.modDraw_handoffs (s : State) (f : Draw → Draw) : (s.modDraw f).handoffs = s.handoffs := rfl
@[simp] theorem State.modDraw_free (s : State) (f : Draw → Draw) : (s.modDraw f).free = s.free := rfl
@[simp] theorem State.modDraw_elapsed (s : State) (f : Draw → Draw) : (s.modDraw f).elapsed = s.elapsed := rfl
@[simp] theorem State.modDraw_clock (s : State) (f : Draw → Draw) : (s.modDraw f).clock = s.clock := rfl
@[simp] theorem State.modDraw_minuteDue (s : State) (f : Draw → Draw) : (s.modDraw f).minuteDue = s.minuteDue := rfl
@[simp] theorem State.modDraw_runState (s : State) (f : Draw → Draw) : (s.modDraw f).runState = s.runState := rfl
@[simp] theorem State.modDraw_flags (s : State) (f : Draw → Draw) : (s.modDraw f).flags = s.flags := rfl
@[simp] theorem State.modDraw_yard (s : State) (f : Draw → Draw) : (s.modDraw f).yard = s.yard := rfl
@[simp] theorem State.modDraw_yardPresent (s : State) (f : Draw → Draw) : (s.modDraw f).yardPresent = s.yardPresent := rfl
@[simp] theorem State.modDraw_yardDamaged (s : State) (f : Draw → Draw) : (s.modDraw f).yardDamaged = s.yardDamaged := rfl
@[simp] theorem State.modDraw_holders (s : State) (f : Draw → Draw) : (s.modDraw f).holders = s.holders := rfl
@[simp] theorem State.modDraw_rateDue (s : State) (f : Draw → Draw) : (s.modDraw f).rateDue = s.rateDue := rfl
@[simp] theorem State.modDraw_valves (s : State) (f : Draw → Draw) : (s.modDraw f).valves = s.valves := rfl
@[simp] theorem State.modDraw_fill (s : State) (f : Draw → Draw) : (s.modDraw f).fill = s.fill := rfl
@[simp] theorem State.modDraw_draw (s : State) (f : Draw → Draw) : (s.modDraw f).draw = f s.draw := rfl
@[simp] theorem State.modDraw_districts (s : State) (f : Draw → Draw) : (s.modDraw f).districts = s.districts := rfl
@[simp] theorem State.modDraw_boosters (s : State) (f : Draw → Draw) : (s.modDraw f).boosters = s.boosters := rfl
@[simp] theorem State.modDraw_pool (s : State) (f : Draw → Draw) : (s.modDraw f).pool = s.pool := rfl
@[simp] theorem State.modDraw_meters (s : State) (f : Draw → Draw) : (s.modDraw f).meters = s.meters := rfl
@[simp] theorem State.modDraw_acct (s : State) (f : Draw → Draw) : (s.modDraw f).acct = s.acct := rfl
@[simp] theorem State.modDraw_lines (s : State) (f : Draw → Draw) : (s.modDraw f).lines = s.lines := rfl
@[simp] theorem State.modDraw_dir (s : State) (f : Draw → Draw) : (s.modDraw f).dir = s.dir := rfl
@[simp] theorem State.modDraw_relay (s : State) (f : Draw → Draw) : (s.modDraw f).relay = s.relay := rfl
@[simp] theorem State.modDraw_polls (s : State) (f : Draw → Draw) : (s.modDraw f).polls = s.polls := rfl
@[simp] theorem State.modDraw_pollHoles (s : State) (f : Draw → Draw) : (s.modDraw f).pollHoles = s.pollHoles := rfl
@[simp] theorem State.modDraw_cycle (s : State) (f : Draw → Draw) : (s.modDraw f).cycle = s.cycle := rfl
@[simp] theorem State.modDraw_desk (s : State) (f : Draw → Draw) : (s.modDraw f).desk = s.desk := rfl
@[simp] theorem State.modDraw_mem (s : State) (f : Draw → Draw) : (s.modDraw f).mem = s.mem := rfl

@[simp] theorem State.modPool_pending (s : State) (f : Pool → Pool) : (s.modPool f).pending = s.pending := rfl
@[simp] theorem State.modPool_handoffs (s : State) (f : Pool → Pool) : (s.modPool f).handoffs = s.handoffs := rfl
@[simp] theorem State.modPool_free (s : State) (f : Pool → Pool) : (s.modPool f).free = s.free := rfl
@[simp] theorem State.modPool_elapsed (s : State) (f : Pool → Pool) : (s.modPool f).elapsed = s.elapsed := rfl
@[simp] theorem State.modPool_clock (s : State) (f : Pool → Pool) : (s.modPool f).clock = s.clock := rfl
@[simp] theorem State.modPool_minuteDue (s : State) (f : Pool → Pool) : (s.modPool f).minuteDue = s.minuteDue := rfl
@[simp] theorem State.modPool_runState (s : State) (f : Pool → Pool) : (s.modPool f).runState = s.runState := rfl
@[simp] theorem State.modPool_flags (s : State) (f : Pool → Pool) : (s.modPool f).flags = s.flags := rfl
@[simp] theorem State.modPool_yard (s : State) (f : Pool → Pool) : (s.modPool f).yard = s.yard := rfl
@[simp] theorem State.modPool_yardPresent (s : State) (f : Pool → Pool) : (s.modPool f).yardPresent = s.yardPresent := rfl
@[simp] theorem State.modPool_yardDamaged (s : State) (f : Pool → Pool) : (s.modPool f).yardDamaged = s.yardDamaged := rfl
@[simp] theorem State.modPool_holders (s : State) (f : Pool → Pool) : (s.modPool f).holders = s.holders := rfl
@[simp] theorem State.modPool_rateDue (s : State) (f : Pool → Pool) : (s.modPool f).rateDue = s.rateDue := rfl
@[simp] theorem State.modPool_valves (s : State) (f : Pool → Pool) : (s.modPool f).valves = s.valves := rfl
@[simp] theorem State.modPool_fill (s : State) (f : Pool → Pool) : (s.modPool f).fill = s.fill := rfl
@[simp] theorem State.modPool_draw (s : State) (f : Pool → Pool) : (s.modPool f).draw = s.draw := rfl
@[simp] theorem State.modPool_districts (s : State) (f : Pool → Pool) : (s.modPool f).districts = s.districts := rfl
@[simp] theorem State.modPool_boosters (s : State) (f : Pool → Pool) : (s.modPool f).boosters = s.boosters := rfl
@[simp] theorem State.modPool_pool (s : State) (f : Pool → Pool) : (s.modPool f).pool = f s.pool := rfl
@[simp] theorem State.modPool_meters (s : State) (f : Pool → Pool) : (s.modPool f).meters = s.meters := rfl
@[simp] theorem State.modPool_acct (s : State) (f : Pool → Pool) : (s.modPool f).acct = s.acct := rfl
@[simp] theorem State.modPool_lines (s : State) (f : Pool → Pool) : (s.modPool f).lines = s.lines := rfl
@[simp] theorem State.modPool_dir (s : State) (f : Pool → Pool) : (s.modPool f).dir = s.dir := rfl
@[simp] theorem State.modPool_relay (s : State) (f : Pool → Pool) : (s.modPool f).relay = s.relay := rfl
@[simp] theorem State.modPool_polls (s : State) (f : Pool → Pool) : (s.modPool f).polls = s.polls := rfl
@[simp] theorem State.modPool_pollHoles (s : State) (f : Pool → Pool) : (s.modPool f).pollHoles = s.pollHoles := rfl
@[simp] theorem State.modPool_cycle (s : State) (f : Pool → Pool) : (s.modPool f).cycle = s.cycle := rfl
@[simp] theorem State.modPool_desk (s : State) (f : Pool → Pool) : (s.modPool f).desk = s.desk := rfl
@[simp] theorem State.modPool_mem (s : State) (f : Pool → Pool) : (s.modPool f).mem = s.mem := rfl

@[simp] theorem State.modMem_pending (s : State) (f : TableMem → TableMem) : (s.modMem f).pending = s.pending := rfl
@[simp] theorem State.modMem_handoffs (s : State) (f : TableMem → TableMem) : (s.modMem f).handoffs = s.handoffs := rfl
@[simp] theorem State.modMem_free (s : State) (f : TableMem → TableMem) : (s.modMem f).free = s.free := rfl
@[simp] theorem State.modMem_elapsed (s : State) (f : TableMem → TableMem) : (s.modMem f).elapsed = s.elapsed := rfl
@[simp] theorem State.modMem_clock (s : State) (f : TableMem → TableMem) : (s.modMem f).clock = s.clock := rfl
@[simp] theorem State.modMem_minuteDue (s : State) (f : TableMem → TableMem) : (s.modMem f).minuteDue = s.minuteDue := rfl
@[simp] theorem State.modMem_runState (s : State) (f : TableMem → TableMem) : (s.modMem f).runState = s.runState := rfl
@[simp] theorem State.modMem_flags (s : State) (f : TableMem → TableMem) : (s.modMem f).flags = s.flags := rfl
@[simp] theorem State.modMem_yard (s : State) (f : TableMem → TableMem) : (s.modMem f).yard = s.yard := rfl
@[simp] theorem State.modMem_yardPresent (s : State) (f : TableMem → TableMem) : (s.modMem f).yardPresent = s.yardPresent := rfl
@[simp] theorem State.modMem_yardDamaged (s : State) (f : TableMem → TableMem) : (s.modMem f).yardDamaged = s.yardDamaged := rfl
@[simp] theorem State.modMem_holders (s : State) (f : TableMem → TableMem) : (s.modMem f).holders = s.holders := rfl
@[simp] theorem State.modMem_rateDue (s : State) (f : TableMem → TableMem) : (s.modMem f).rateDue = s.rateDue := rfl
@[simp] theorem State.modMem_valves (s : State) (f : TableMem → TableMem) : (s.modMem f).valves = s.valves := rfl
@[simp] theorem State.modMem_fill (s : State) (f : TableMem → TableMem) : (s.modMem f).fill = s.fill := rfl
@[simp] theorem State.modMem_draw (s : State) (f : TableMem → TableMem) : (s.modMem f).draw = s.draw := rfl
@[simp] theorem State.modMem_districts (s : State) (f : TableMem → TableMem) : (s.modMem f).districts = s.districts := rfl
@[simp] theorem State.modMem_boosters (s : State) (f : TableMem → TableMem) : (s.modMem f).boosters = s.boosters := rfl
@[simp] theorem State.modMem_pool (s : State) (f : TableMem → TableMem) : (s.modMem f).pool = s.pool := rfl
@[simp] theorem State.modMem_meters (s : State) (f : TableMem → TableMem) : (s.modMem f).meters = s.meters := rfl
@[simp] theorem State.modMem_acct (s : State) (f : TableMem → TableMem) : (s.modMem f).acct = s.acct := rfl
@[simp] theorem State.modMem_lines (s : State) (f : TableMem → TableMem) : (s.modMem f).lines = s.lines := rfl
@[simp] theorem State.modMem_dir (s : State) (f : TableMem → TableMem) : (s.modMem f).dir = s.dir := rfl
@[simp] theorem State.modMem_relay (s : State) (f : TableMem → TableMem) : (s.modMem f).relay = s.relay := rfl
@[simp] theorem State.modMem_polls (s : State) (f : TableMem → TableMem) : (s.modMem f).polls = s.polls := rfl
@[simp] theorem State.modMem_pollHoles (s : State) (f : TableMem → TableMem) : (s.modMem f).pollHoles = s.pollHoles := rfl
@[simp] theorem State.modMem_cycle (s : State) (f : TableMem → TableMem) : (s.modMem f).cycle = s.cycle := rfl
@[simp] theorem State.modMem_desk (s : State) (f : TableMem → TableMem) : (s.modMem f).desk = s.desk := rfl
@[simp] theorem State.modMem_mem (s : State) (f : TableMem → TableMem) : (s.modMem f).mem = f s.mem := rfl

@[simp] theorem State.modDesk_pending (s : State) (f : Desk → Desk) : (s.modDesk f).pending = s.pending := rfl
@[simp] theorem State.modDesk_handoffs (s : State) (f : Desk → Desk) : (s.modDesk f).handoffs = s.handoffs := rfl
@[simp] theorem State.modDesk_free (s : State) (f : Desk → Desk) : (s.modDesk f).free = s.free := rfl
@[simp] theorem State.modDesk_elapsed (s : State) (f : Desk → Desk) : (s.modDesk f).elapsed = s.elapsed := rfl
@[simp] theorem State.modDesk_clock (s : State) (f : Desk → Desk) : (s.modDesk f).clock = s.clock := rfl
@[simp] theorem State.modDesk_minuteDue (s : State) (f : Desk → Desk) : (s.modDesk f).minuteDue = s.minuteDue := rfl
@[simp] theorem State.modDesk_runState (s : State) (f : Desk → Desk) : (s.modDesk f).runState = s.runState := rfl
@[simp] theorem State.modDesk_flags (s : State) (f : Desk → Desk) : (s.modDesk f).flags = s.flags := rfl
@[simp] theorem State.modDesk_yard (s : State) (f : Desk → Desk) : (s.modDesk f).yard = s.yard := rfl
@[simp] theorem State.modDesk_yardPresent (s : State) (f : Desk → Desk) : (s.modDesk f).yardPresent = s.yardPresent := rfl
@[simp] theorem State.modDesk_yardDamaged (s : State) (f : Desk → Desk) : (s.modDesk f).yardDamaged = s.yardDamaged := rfl
@[simp] theorem State.modDesk_holders (s : State) (f : Desk → Desk) : (s.modDesk f).holders = s.holders := rfl
@[simp] theorem State.modDesk_rateDue (s : State) (f : Desk → Desk) : (s.modDesk f).rateDue = s.rateDue := rfl
@[simp] theorem State.modDesk_valves (s : State) (f : Desk → Desk) : (s.modDesk f).valves = s.valves := rfl
@[simp] theorem State.modDesk_fill (s : State) (f : Desk → Desk) : (s.modDesk f).fill = s.fill := rfl
@[simp] theorem State.modDesk_draw (s : State) (f : Desk → Desk) : (s.modDesk f).draw = s.draw := rfl
@[simp] theorem State.modDesk_districts (s : State) (f : Desk → Desk) : (s.modDesk f).districts = s.districts := rfl
@[simp] theorem State.modDesk_boosters (s : State) (f : Desk → Desk) : (s.modDesk f).boosters = s.boosters := rfl
@[simp] theorem State.modDesk_pool (s : State) (f : Desk → Desk) : (s.modDesk f).pool = s.pool := rfl
@[simp] theorem State.modDesk_meters (s : State) (f : Desk → Desk) : (s.modDesk f).meters = s.meters := rfl
@[simp] theorem State.modDesk_acct (s : State) (f : Desk → Desk) : (s.modDesk f).acct = s.acct := rfl
@[simp] theorem State.modDesk_lines (s : State) (f : Desk → Desk) : (s.modDesk f).lines = s.lines := rfl
@[simp] theorem State.modDesk_dir (s : State) (f : Desk → Desk) : (s.modDesk f).dir = s.dir := rfl
@[simp] theorem State.modDesk_relay (s : State) (f : Desk → Desk) : (s.modDesk f).relay = s.relay := rfl
@[simp] theorem State.modDesk_polls (s : State) (f : Desk → Desk) : (s.modDesk f).polls = s.polls := rfl
@[simp] theorem State.modDesk_pollHoles (s : State) (f : Desk → Desk) : (s.modDesk f).pollHoles = s.pollHoles := rfl
@[simp] theorem State.modDesk_cycle (s : State) (f : Desk → Desk) : (s.modDesk f).cycle = s.cycle := rfl
@[simp] theorem State.modDesk_desk (s : State) (f : Desk → Desk) : (s.modDesk f).desk = f s.desk := rfl
@[simp] theorem State.modDesk_mem (s : State) (f : Desk → Desk) : (s.modDesk f).mem = s.mem := rfl

@[simp] theorem State.modAcct_pending (s : State) (f : Account → Account) : (s.modAcct f).pending = s.pending := rfl
@[simp] theorem State.modAcct_handoffs (s : State) (f : Account → Account) : (s.modAcct f).handoffs = s.handoffs := rfl
@[simp] theorem State.modAcct_free (s : State) (f : Account → Account) : (s.modAcct f).free = s.free := rfl
@[simp] theorem State.modAcct_elapsed (s : State) (f : Account → Account) : (s.modAcct f).elapsed = s.elapsed := rfl
@[simp] theorem State.modAcct_clock (s : State) (f : Account → Account) : (s.modAcct f).clock = s.clock := rfl
@[simp] theorem State.modAcct_minuteDue (s : State) (f : Account → Account) : (s.modAcct f).minuteDue = s.minuteDue := rfl
@[simp] theorem State.modAcct_runState (s : State) (f : Account → Account) : (s.modAcct f).runState = s.runState := rfl
@[simp] theorem State.modAcct_flags (s : State) (f : Account → Account) : (s.modAcct f).flags = s.flags := rfl
@[simp] theorem State.modAcct_yard (s : State) (f : Account → Account) : (s.modAcct f).yard = s.yard := rfl
@[simp] theorem State.modAcct_yardPresent (s : State) (f : Account → Account) : (s.modAcct f).yardPresent = s.yardPresent := rfl
@[simp] theorem State.modAcct_yardDamaged (s : State) (f : Account → Account) : (s.modAcct f).yardDamaged = s.yardDamaged := rfl
@[simp] theorem State.modAcct_holders (s : State) (f : Account → Account) : (s.modAcct f).holders = s.holders := rfl
@[simp] theorem State.modAcct_rateDue (s : State) (f : Account → Account) : (s.modAcct f).rateDue = s.rateDue := rfl
@[simp] theorem State.modAcct_valves (s : State) (f : Account → Account) : (s.modAcct f).valves = s.valves := rfl
@[simp] theorem State.modAcct_fill (s : State) (f : Account → Account) : (s.modAcct f).fill = s.fill := rfl
@[simp] theorem State.modAcct_draw (s : State) (f : Account → Account) : (s.modAcct f).draw = s.draw := rfl
@[simp] theorem State.modAcct_districts (s : State) (f : Account → Account) : (s.modAcct f).districts = s.districts := rfl
@[simp] theorem State.modAcct_boosters (s : State) (f : Account → Account) : (s.modAcct f).boosters = s.boosters := rfl
@[simp] theorem State.modAcct_pool (s : State) (f : Account → Account) : (s.modAcct f).pool = s.pool := rfl
@[simp] theorem State.modAcct_meters (s : State) (f : Account → Account) : (s.modAcct f).meters = s.meters := rfl
@[simp] theorem State.modAcct_acct (s : State) (f : Account → Account) : (s.modAcct f).acct = { s.acct with openAcct := f s.acct.openAcct } := rfl
@[simp] theorem State.modAcct_lines (s : State) (f : Account → Account) : (s.modAcct f).lines = s.lines := rfl
@[simp] theorem State.modAcct_dir (s : State) (f : Account → Account) : (s.modAcct f).dir = s.dir := rfl
@[simp] theorem State.modAcct_relay (s : State) (f : Account → Account) : (s.modAcct f).relay = s.relay := rfl
@[simp] theorem State.modAcct_polls (s : State) (f : Account → Account) : (s.modAcct f).polls = s.polls := rfl
@[simp] theorem State.modAcct_pollHoles (s : State) (f : Account → Account) : (s.modAcct f).pollHoles = s.pollHoles := rfl
@[simp] theorem State.modAcct_cycle (s : State) (f : Account → Account) : (s.modAcct f).cycle = s.cycle := rfl
@[simp] theorem State.modAcct_desk (s : State) (f : Account → Account) : (s.modAcct f).desk = s.desk := rfl
@[simp] theorem State.modAcct_mem (s : State) (f : Account → Account) : (s.modAcct f).mem = s.mem := rfl

@[simp] theorem State.notify_pending (s : State) (k : NoticeKind) (sub : Subject) (det : Detail) : (s.notify k sub det).pending = s.pending := rfl
@[simp] theorem State.notify_handoffs (s : State) (k : NoticeKind) (sub : Subject) (det : Detail) : (s.notify k sub det).handoffs = s.handoffs := rfl
@[simp] theorem State.notify_free (s : State) (k : NoticeKind) (sub : Subject) (det : Detail) : (s.notify k sub det).free = s.free := rfl
@[simp] theorem State.notify_elapsed (s : State) (k : NoticeKind) (sub : Subject) (det : Detail) : (s.notify k sub det).elapsed = s.elapsed := rfl
@[simp] theorem State.notify_clock (s : State) (k : NoticeKind) (sub : Subject) (det : Detail) : (s.notify k sub det).clock = s.clock := rfl
@[simp] theorem State.notify_minuteDue (s : State) (k : NoticeKind) (sub : Subject) (det : Detail) : (s.notify k sub det).minuteDue = s.minuteDue := rfl
@[simp] theorem State.notify_runState (s : State) (k : NoticeKind) (sub : Subject) (det : Detail) : (s.notify k sub det).runState = s.runState := rfl
@[simp] theorem State.notify_flags (s : State) (k : NoticeKind) (sub : Subject) (det : Detail) : (s.notify k sub det).flags = s.flags := rfl
@[simp] theorem State.notify_yard (s : State) (k : NoticeKind) (sub : Subject) (det : Detail) : (s.notify k sub det).yard = s.yard := rfl
@[simp] theorem State.notify_yardPresent (s : State) (k : NoticeKind) (sub : Subject) (det : Detail) : (s.notify k sub det).yardPresent = s.yardPresent := rfl
@[simp] theorem State.notify_yardDamaged (s : State) (k : NoticeKind) (sub : Subject) (det : Detail) : (s.notify k sub det).yardDamaged = s.yardDamaged := rfl
@[simp] theorem State.notify_holders (s : State) (k : NoticeKind) (sub : Subject) (det : Detail) : (s.notify k sub det).holders = s.holders := rfl
@[simp] theorem State.notify_rateDue (s : State) (k : NoticeKind) (sub : Subject) (det : Detail) : (s.notify k sub det).rateDue = s.rateDue := rfl
@[simp] theorem State.notify_valves (s : State) (k : NoticeKind) (sub : Subject) (det : Detail) : (s.notify k sub det).valves = s.valves := rfl
@[simp] theorem State.notify_fill (s : State) (k : NoticeKind) (sub : Subject) (det : Detail) : (s.notify k sub det).fill = s.fill := rfl
@[simp] theorem State.notify_draw (s : State) (k : NoticeKind) (sub : Subject) (det : Detail) : (s.notify k sub det).draw = s.draw := rfl
@[simp] theorem State.notify_districts (s : State) (k : NoticeKind) (sub : Subject) (det : Detail) : (s.notify k sub det).districts = s.districts := rfl
@[simp] theorem State.notify_boosters (s : State) (k : NoticeKind) (sub : Subject) (det : Detail) : (s.notify k sub det).boosters = s.boosters := rfl
@[simp] theorem State.notify_pool (s : State) (k : NoticeKind) (sub : Subject) (det : Detail) : (s.notify k sub det).pool = s.pool := rfl
@[simp] theorem State.notify_meters (s : State) (k : NoticeKind) (sub : Subject) (det : Detail) : (s.notify k sub det).meters = s.meters := rfl
@[simp] theorem State.notify_acct (s : State) (k : NoticeKind) (sub : Subject) (det : Detail) : (s.notify k sub det).acct = s.acct := rfl
@[simp] theorem State.notify_lines (s : State) (k : NoticeKind) (sub : Subject) (det : Detail) : (s.notify k sub det).lines = s.lines := rfl
@[simp] theorem State.notify_dir (s : State) (k : NoticeKind) (sub : Subject) (det : Detail) : (s.notify k sub det).dir = s.dir := rfl
@[simp] theorem State.notify_relay (s : State) (k : NoticeKind) (sub : Subject) (det : Detail) : (s.notify k sub det).relay = s.relay := rfl
@[simp] theorem State.notify_polls (s : State) (k : NoticeKind) (sub : Subject) (det : Detail) : (s.notify k sub det).polls = s.polls := rfl
@[simp] theorem State.notify_pollHoles (s : State) (k : NoticeKind) (sub : Subject) (det : Detail) : (s.notify k sub det).pollHoles = s.pollHoles := rfl
@[simp] theorem State.notify_cycle (s : State) (k : NoticeKind) (sub : Subject) (det : Detail) : (s.notify k sub det).cycle = s.cycle := rfl
@[simp] theorem State.notify_mem (s : State) (k : NoticeKind) (sub : Subject) (det : Detail) : (s.notify k sub det).mem = s.mem := rfl

@[simp] theorem State.answerRelayed_pending (s : State) (tag request : Nat) (res : Result) (why : Option Reason) (st : Nat) (owed : Bool) : (s.answerRelayed tag request res why st owed).pending = s.pending := rfl
@[simp] theorem State.answerRelayed_handoffs (s : State) (tag request : Nat) (res : Result) (why : Option Reason) (st : Nat) (owed : Bool) : (s.answerRelayed tag request res why st owed).handoffs = s.handoffs := rfl
@[simp] theorem State.answerRelayed_free (s : State) (tag request : Nat) (res : Result) (why : Option Reason) (st : Nat) (owed : Bool) : (s.answerRelayed tag request res why st owed).free = s.free := rfl
@[simp] theorem State.answerRelayed_elapsed (s : State) (tag request : Nat) (res : Result) (why : Option Reason) (st : Nat) (owed : Bool) : (s.answerRelayed tag request res why st owed).elapsed = s.elapsed := rfl
@[simp] theorem State.answerRelayed_clock (s : State) (tag request : Nat) (res : Result) (why : Option Reason) (st : Nat) (owed : Bool) : (s.answerRelayed tag request res why st owed).clock = s.clock := rfl
@[simp] theorem State.answerRelayed_minuteDue (s : State) (tag request : Nat) (res : Result) (why : Option Reason) (st : Nat) (owed : Bool) : (s.answerRelayed tag request res why st owed).minuteDue = s.minuteDue := rfl
@[simp] theorem State.answerRelayed_runState (s : State) (tag request : Nat) (res : Result) (why : Option Reason) (st : Nat) (owed : Bool) : (s.answerRelayed tag request res why st owed).runState = s.runState := rfl
@[simp] theorem State.answerRelayed_flags (s : State) (tag request : Nat) (res : Result) (why : Option Reason) (st : Nat) (owed : Bool) : (s.answerRelayed tag request res why st owed).flags = s.flags := rfl
@[simp] theorem State.answerRelayed_yard (s : State) (tag request : Nat) (res : Result) (why : Option Reason) (st : Nat) (owed : Bool) : (s.answerRelayed tag request res why st owed).yard = s.yard := rfl
@[simp] theorem State.answerRelayed_yardPresent (s : State) (tag request : Nat) (res : Result) (why : Option Reason) (st : Nat) (owed : Bool) : (s.answerRelayed tag request res why st owed).yardPresent = s.yardPresent := rfl
@[simp] theorem State.answerRelayed_yardDamaged (s : State) (tag request : Nat) (res : Result) (why : Option Reason) (st : Nat) (owed : Bool) : (s.answerRelayed tag request res why st owed).yardDamaged = s.yardDamaged := rfl
@[simp] theorem State.answerRelayed_holders (s : State) (tag request : Nat) (res : Result) (why : Option Reason) (st : Nat) (owed : Bool) : (s.answerRelayed tag request res why st owed).holders = s.holders := rfl
@[simp] theorem State.answerRelayed_rateDue (s : State) (tag request : Nat) (res : Result) (why : Option Reason) (st : Nat) (owed : Bool) : (s.answerRelayed tag request res why st owed).rateDue = s.rateDue := rfl
@[simp] theorem State.answerRelayed_valves (s : State) (tag request : Nat) (res : Result) (why : Option Reason) (st : Nat) (owed : Bool) : (s.answerRelayed tag request res why st owed).valves = s.valves := rfl
@[simp] theorem State.answerRelayed_fill (s : State) (tag request : Nat) (res : Result) (why : Option Reason) (st : Nat) (owed : Bool) : (s.answerRelayed tag request res why st owed).fill = s.fill := rfl
@[simp] theorem State.answerRelayed_draw (s : State) (tag request : Nat) (res : Result) (why : Option Reason) (st : Nat) (owed : Bool) : (s.answerRelayed tag request res why st owed).draw = s.draw := rfl
@[simp] theorem State.answerRelayed_districts (s : State) (tag request : Nat) (res : Result) (why : Option Reason) (st : Nat) (owed : Bool) : (s.answerRelayed tag request res why st owed).districts = s.districts := rfl
@[simp] theorem State.answerRelayed_boosters (s : State) (tag request : Nat) (res : Result) (why : Option Reason) (st : Nat) (owed : Bool) : (s.answerRelayed tag request res why st owed).boosters = s.boosters := rfl
@[simp] theorem State.answerRelayed_pool (s : State) (tag request : Nat) (res : Result) (why : Option Reason) (st : Nat) (owed : Bool) : (s.answerRelayed tag request res why st owed).pool = s.pool := rfl
@[simp] theorem State.answerRelayed_meters (s : State) (tag request : Nat) (res : Result) (why : Option Reason) (st : Nat) (owed : Bool) : (s.answerRelayed tag request res why st owed).meters = s.meters := rfl
@[simp] theorem State.answerRelayed_acct (s : State) (tag request : Nat) (res : Result) (why : Option Reason) (st : Nat) (owed : Bool) : (s.answerRelayed tag request res why st owed).acct = s.acct := rfl
@[simp] theorem State.answerRelayed_lines (s : State) (tag request : Nat) (res : Result) (why : Option Reason) (st : Nat) (owed : Bool) : (s.answerRelayed tag request res why st owed).lines = s.lines := rfl
@[simp] theorem State.answerRelayed_dir (s : State) (tag request : Nat) (res : Result) (why : Option Reason) (st : Nat) (owed : Bool) : (s.answerRelayed tag request res why st owed).dir = s.dir := rfl
@[simp] theorem State.answerRelayed_relay (s : State) (tag request : Nat) (res : Result) (why : Option Reason) (st : Nat) (owed : Bool) : (s.answerRelayed tag request res why st owed).relay = s.relay := rfl
@[simp] theorem State.answerRelayed_polls (s : State) (tag request : Nat) (res : Result) (why : Option Reason) (st : Nat) (owed : Bool) : (s.answerRelayed tag request res why st owed).polls = s.polls := rfl
@[simp] theorem State.answerRelayed_pollHoles (s : State) (tag request : Nat) (res : Result) (why : Option Reason) (st : Nat) (owed : Bool) : (s.answerRelayed tag request res why st owed).pollHoles = s.pollHoles := rfl
@[simp] theorem State.answerRelayed_cycle (s : State) (tag request : Nat) (res : Result) (why : Option Reason) (st : Nat) (owed : Bool) : (s.answerRelayed tag request res why st owed).cycle = s.cycle := rfl
@[simp] theorem State.answerRelayed_mem (s : State) (tag request : Nat) (res : Result) (why : Option Reason) (st : Nat) (owed : Bool) : (s.answerRelayed tag request res why st owed).mem = s.mem := rfl
@[simp] theorem State.answerOrder_pending (s : State) (g : DeskRef) (res : Result) (why : Option Reason) (owed : Bool) : (s.answerOrder g res why owed).pending = s.pending := rfl
@[simp] theorem State.answerOrder_handoffs (s : State) (g : DeskRef) (res : Result) (why : Option Reason) (owed : Bool) : (s.answerOrder g res why owed).handoffs = s.handoffs := rfl
@[simp] theorem State.answerOrder_free (s : State) (g : DeskRef) (res : Result) (why : Option Reason) (owed : Bool) : (s.answerOrder g res why owed).free = s.free := rfl
@[simp] theorem State.answerOrder_elapsed (s : State) (g : DeskRef) (res : Result) (why : Option Reason) (owed : Bool) : (s.answerOrder g res why owed).elapsed = s.elapsed := rfl
@[simp] theorem State.answerOrder_clock (s : State) (g : DeskRef) (res : Result) (why : Option Reason) (owed : Bool) : (s.answerOrder g res why owed).clock = s.clock := rfl
@[simp] theorem State.answerOrder_minuteDue (s : State) (g : DeskRef) (res : Result) (why : Option Reason) (owed : Bool) : (s.answerOrder g res why owed).minuteDue = s.minuteDue := rfl
@[simp] theorem State.answerOrder_runState (s : State) (g : DeskRef) (res : Result) (why : Option Reason) (owed : Bool) : (s.answerOrder g res why owed).runState = s.runState := rfl
@[simp] theorem State.answerOrder_flags (s : State) (g : DeskRef) (res : Result) (why : Option Reason) (owed : Bool) : (s.answerOrder g res why owed).flags = s.flags := rfl
@[simp] theorem State.answerOrder_yard (s : State) (g : DeskRef) (res : Result) (why : Option Reason) (owed : Bool) : (s.answerOrder g res why owed).yard = s.yard := rfl
@[simp] theorem State.answerOrder_yardPresent (s : State) (g : DeskRef) (res : Result) (why : Option Reason) (owed : Bool) : (s.answerOrder g res why owed).yardPresent = s.yardPresent := rfl
@[simp] theorem State.answerOrder_yardDamaged (s : State) (g : DeskRef) (res : Result) (why : Option Reason) (owed : Bool) : (s.answerOrder g res why owed).yardDamaged = s.yardDamaged := rfl
@[simp] theorem State.answerOrder_holders (s : State) (g : DeskRef) (res : Result) (why : Option Reason) (owed : Bool) : (s.answerOrder g res why owed).holders = s.holders := rfl
@[simp] theorem State.answerOrder_rateDue (s : State) (g : DeskRef) (res : Result) (why : Option Reason) (owed : Bool) : (s.answerOrder g res why owed).rateDue = s.rateDue := rfl
@[simp] theorem State.answerOrder_valves (s : State) (g : DeskRef) (res : Result) (why : Option Reason) (owed : Bool) : (s.answerOrder g res why owed).valves = s.valves := rfl
@[simp] theorem State.answerOrder_fill (s : State) (g : DeskRef) (res : Result) (why : Option Reason) (owed : Bool) : (s.answerOrder g res why owed).fill = s.fill := rfl
@[simp] theorem State.answerOrder_draw (s : State) (g : DeskRef) (res : Result) (why : Option Reason) (owed : Bool) : (s.answerOrder g res why owed).draw = s.draw := rfl
@[simp] theorem State.answerOrder_districts (s : State) (g : DeskRef) (res : Result) (why : Option Reason) (owed : Bool) : (s.answerOrder g res why owed).districts = s.districts := rfl
@[simp] theorem State.answerOrder_boosters (s : State) (g : DeskRef) (res : Result) (why : Option Reason) (owed : Bool) : (s.answerOrder g res why owed).boosters = s.boosters := rfl
@[simp] theorem State.answerOrder_pool (s : State) (g : DeskRef) (res : Result) (why : Option Reason) (owed : Bool) : (s.answerOrder g res why owed).pool = s.pool := rfl
@[simp] theorem State.answerOrder_meters (s : State) (g : DeskRef) (res : Result) (why : Option Reason) (owed : Bool) : (s.answerOrder g res why owed).meters = s.meters := rfl
@[simp] theorem State.answerOrder_acct (s : State) (g : DeskRef) (res : Result) (why : Option Reason) (owed : Bool) : (s.answerOrder g res why owed).acct = s.acct := rfl
@[simp] theorem State.answerOrder_lines (s : State) (g : DeskRef) (res : Result) (why : Option Reason) (owed : Bool) : (s.answerOrder g res why owed).lines = s.lines := rfl
@[simp] theorem State.answerOrder_dir (s : State) (g : DeskRef) (res : Result) (why : Option Reason) (owed : Bool) : (s.answerOrder g res why owed).dir = s.dir := rfl
@[simp] theorem State.answerOrder_relay (s : State) (g : DeskRef) (res : Result) (why : Option Reason) (owed : Bool) : (s.answerOrder g res why owed).relay = s.relay := rfl
@[simp] theorem State.answerOrder_polls (s : State) (g : DeskRef) (res : Result) (why : Option Reason) (owed : Bool) : (s.answerOrder g res why owed).polls = s.polls := rfl
@[simp] theorem State.answerOrder_pollHoles (s : State) (g : DeskRef) (res : Result) (why : Option Reason) (owed : Bool) : (s.answerOrder g res why owed).pollHoles = s.pollHoles := rfl
@[simp] theorem State.answerOrder_cycle (s : State) (g : DeskRef) (res : Result) (why : Option Reason) (owed : Bool) : (s.answerOrder g res why owed).cycle = s.cycle := rfl
@[simp] theorem State.answerOrder_mem (s : State) (g : DeskRef) (res : Result) (why : Option Reason) (owed : Bool) : (s.answerOrder g res why owed).mem = s.mem := rfl

/-- Answers to desk orders change the desk only. -/
theorem State.answerEach_desk (s : State) (r : Result) (gs : List DeskRef) (owed : Bool) :
    s.answerEach r gs owed = { s with desk := (s.answerEach r gs owed).desk } := by
  unfold State.answerEach
  induction gs generalizing s with
  | nil => rfl
  | cons g gs ih => exact ih (s.answerOrder g r none owed)

@[simp] theorem State.answerEach_nil (s : State) (r : Result) (owed : Bool) : s.answerEach r [] owed = s := rfl
@[simp] theorem State.answerEach_cons (s : State) (r : Result) (g : DeskRef) (gs : List DeskRef) (owed : Bool) :
    s.answerEach r (g :: gs) owed = (s.answerOrder g r none owed).answerEach r gs owed := rfl
@[simp] theorem State.answerEach_holders (s : State) (r : Result) (gs : List DeskRef) (owed : Bool) :
    (s.answerEach r gs owed).holders = s.holders := by rw [State.answerEach_desk]
@[simp] theorem State.answerEach_handoffs (s : State) (r : Result) (gs : List DeskRef) (owed : Bool) :
    (s.answerEach r gs owed).handoffs = s.handoffs := by rw [State.answerEach_desk]

@[simp] theorem State.giveAnswer_pending (s : State) (tag c : Nat) (r : Result) (why : Option Reason) (d : AnswerData) : (s.giveAnswer tag c r why d).pending = s.pending := rfl
@[simp] theorem State.giveAnswer_handoffs (s : State) (tag c : Nat) (r : Result) (why : Option Reason) (d : AnswerData) : (s.giveAnswer tag c r why d).handoffs = s.handoffs := rfl
@[simp] theorem State.giveAnswer_free (s : State) (tag c : Nat) (r : Result) (why : Option Reason) (d : AnswerData) : (s.giveAnswer tag c r why d).free = s.free := rfl
@[simp] theorem State.giveAnswer_elapsed (s : State) (tag c : Nat) (r : Result) (why : Option Reason) (d : AnswerData) : (s.giveAnswer tag c r why d).elapsed = s.elapsed := rfl
@[simp] theorem State.giveAnswer_clock (s : State) (tag c : Nat) (r : Result) (why : Option Reason) (d : AnswerData) : (s.giveAnswer tag c r why d).clock = s.clock := rfl
@[simp] theorem State.giveAnswer_minuteDue (s : State) (tag c : Nat) (r : Result) (why : Option Reason) (d : AnswerData) : (s.giveAnswer tag c r why d).minuteDue = s.minuteDue := rfl
@[simp] theorem State.giveAnswer_runState (s : State) (tag c : Nat) (r : Result) (why : Option Reason) (d : AnswerData) : (s.giveAnswer tag c r why d).runState = s.runState := rfl
@[simp] theorem State.giveAnswer_flags (s : State) (tag c : Nat) (r : Result) (why : Option Reason) (d : AnswerData) : (s.giveAnswer tag c r why d).flags = s.flags := rfl
@[simp] theorem State.giveAnswer_yard (s : State) (tag c : Nat) (r : Result) (why : Option Reason) (d : AnswerData) : (s.giveAnswer tag c r why d).yard = s.yard := rfl
@[simp] theorem State.giveAnswer_yardPresent (s : State) (tag c : Nat) (r : Result) (why : Option Reason) (d : AnswerData) : (s.giveAnswer tag c r why d).yardPresent = s.yardPresent := rfl
@[simp] theorem State.giveAnswer_yardDamaged (s : State) (tag c : Nat) (r : Result) (why : Option Reason) (d : AnswerData) : (s.giveAnswer tag c r why d).yardDamaged = s.yardDamaged := rfl
@[simp] theorem State.giveAnswer_holders (s : State) (tag c : Nat) (r : Result) (why : Option Reason) (d : AnswerData) : (s.giveAnswer tag c r why d).holders = s.holders := rfl
@[simp] theorem State.giveAnswer_rateDue (s : State) (tag c : Nat) (r : Result) (why : Option Reason) (d : AnswerData) : (s.giveAnswer tag c r why d).rateDue = s.rateDue := rfl
@[simp] theorem State.giveAnswer_valves (s : State) (tag c : Nat) (r : Result) (why : Option Reason) (d : AnswerData) : (s.giveAnswer tag c r why d).valves = s.valves := rfl
@[simp] theorem State.giveAnswer_fill (s : State) (tag c : Nat) (r : Result) (why : Option Reason) (d : AnswerData) : (s.giveAnswer tag c r why d).fill = s.fill := rfl
@[simp] theorem State.giveAnswer_draw (s : State) (tag c : Nat) (r : Result) (why : Option Reason) (d : AnswerData) : (s.giveAnswer tag c r why d).draw = s.draw := rfl
@[simp] theorem State.giveAnswer_districts (s : State) (tag c : Nat) (r : Result) (why : Option Reason) (d : AnswerData) : (s.giveAnswer tag c r why d).districts = s.districts := rfl
@[simp] theorem State.giveAnswer_boosters (s : State) (tag c : Nat) (r : Result) (why : Option Reason) (d : AnswerData) : (s.giveAnswer tag c r why d).boosters = s.boosters := rfl
@[simp] theorem State.giveAnswer_pool (s : State) (tag c : Nat) (r : Result) (why : Option Reason) (d : AnswerData) : (s.giveAnswer tag c r why d).pool = s.pool := rfl
@[simp] theorem State.giveAnswer_meters (s : State) (tag c : Nat) (r : Result) (why : Option Reason) (d : AnswerData) : (s.giveAnswer tag c r why d).meters = s.meters := rfl
@[simp] theorem State.giveAnswer_acct (s : State) (tag c : Nat) (r : Result) (why : Option Reason) (d : AnswerData) : (s.giveAnswer tag c r why d).acct = s.acct := rfl
@[simp] theorem State.giveAnswer_lines (s : State) (tag c : Nat) (r : Result) (why : Option Reason) (d : AnswerData) : (s.giveAnswer tag c r why d).lines = s.lines := rfl
@[simp] theorem State.giveAnswer_dir (s : State) (tag c : Nat) (r : Result) (why : Option Reason) (d : AnswerData) : (s.giveAnswer tag c r why d).dir = s.dir := rfl
@[simp] theorem State.giveAnswer_relay (s : State) (tag c : Nat) (r : Result) (why : Option Reason) (d : AnswerData) : (s.giveAnswer tag c r why d).relay = s.relay := rfl
@[simp] theorem State.giveAnswer_polls (s : State) (tag c : Nat) (r : Result) (why : Option Reason) (d : AnswerData) : (s.giveAnswer tag c r why d).polls = s.polls := rfl
@[simp] theorem State.giveAnswer_pollHoles (s : State) (tag c : Nat) (r : Result) (why : Option Reason) (d : AnswerData) : (s.giveAnswer tag c r why d).pollHoles = s.pollHoles := rfl
@[simp] theorem State.giveAnswer_cycle (s : State) (tag c : Nat) (r : Result) (why : Option Reason) (d : AnswerData) : (s.giveAnswer tag c r why d).cycle = s.cycle := rfl
@[simp] theorem State.giveAnswer_mem (s : State) (tag c : Nat) (r : Result) (why : Option Reason) (d : AnswerData) : (s.giveAnswer tag c r why d).mem = s.mem := rfl

@[simp] theorem State.relayOut_pending (s : State) (c : RelayClass) (l : FLine) (t : Telegram) : (s.relayOut c l t).pending = s.pending := rfl
@[simp] theorem State.relayOut_handoffs (s : State) (c : RelayClass) (l : FLine) (t : Telegram) : (s.relayOut c l t).handoffs = s.handoffs := rfl
@[simp] theorem State.relayOut_free (s : State) (c : RelayClass) (l : FLine) (t : Telegram) : (s.relayOut c l t).free = s.free := rfl
@[simp] theorem State.relayOut_elapsed (s : State) (c : RelayClass) (l : FLine) (t : Telegram) : (s.relayOut c l t).elapsed = s.elapsed := rfl
@[simp] theorem State.relayOut_clock (s : State) (c : RelayClass) (l : FLine) (t : Telegram) : (s.relayOut c l t).clock = s.clock := rfl
@[simp] theorem State.relayOut_minuteDue (s : State) (c : RelayClass) (l : FLine) (t : Telegram) : (s.relayOut c l t).minuteDue = s.minuteDue := rfl
@[simp] theorem State.relayOut_runState (s : State) (c : RelayClass) (l : FLine) (t : Telegram) : (s.relayOut c l t).runState = s.runState := rfl
@[simp] theorem State.relayOut_flags (s : State) (c : RelayClass) (l : FLine) (t : Telegram) : (s.relayOut c l t).flags = s.flags := rfl
@[simp] theorem State.relayOut_yard (s : State) (c : RelayClass) (l : FLine) (t : Telegram) : (s.relayOut c l t).yard = s.yard := rfl
@[simp] theorem State.relayOut_yardPresent (s : State) (c : RelayClass) (l : FLine) (t : Telegram) : (s.relayOut c l t).yardPresent = s.yardPresent := rfl
@[simp] theorem State.relayOut_yardDamaged (s : State) (c : RelayClass) (l : FLine) (t : Telegram) : (s.relayOut c l t).yardDamaged = s.yardDamaged := rfl
@[simp] theorem State.relayOut_holders (s : State) (c : RelayClass) (l : FLine) (t : Telegram) : (s.relayOut c l t).holders = s.holders := rfl
@[simp] theorem State.relayOut_rateDue (s : State) (c : RelayClass) (l : FLine) (t : Telegram) : (s.relayOut c l t).rateDue = s.rateDue := rfl
@[simp] theorem State.relayOut_valves (s : State) (c : RelayClass) (l : FLine) (t : Telegram) : (s.relayOut c l t).valves = s.valves := rfl
@[simp] theorem State.relayOut_fill (s : State) (c : RelayClass) (l : FLine) (t : Telegram) : (s.relayOut c l t).fill = s.fill := rfl
@[simp] theorem State.relayOut_draw (s : State) (c : RelayClass) (l : FLine) (t : Telegram) : (s.relayOut c l t).draw = s.draw := rfl
@[simp] theorem State.relayOut_districts (s : State) (c : RelayClass) (l : FLine) (t : Telegram) : (s.relayOut c l t).districts = s.districts := rfl
@[simp] theorem State.relayOut_boosters (s : State) (c : RelayClass) (l : FLine) (t : Telegram) : (s.relayOut c l t).boosters = s.boosters := rfl
@[simp] theorem State.relayOut_pool (s : State) (c : RelayClass) (l : FLine) (t : Telegram) : (s.relayOut c l t).pool = s.pool := rfl
@[simp] theorem State.relayOut_meters (s : State) (c : RelayClass) (l : FLine) (t : Telegram) : (s.relayOut c l t).meters = s.meters := rfl
@[simp] theorem State.relayOut_acct (s : State) (c : RelayClass) (l : FLine) (t : Telegram) : (s.relayOut c l t).acct = s.acct := rfl
@[simp] theorem State.relayOut_lines (s : State) (c : RelayClass) (l : FLine) (t : Telegram) : (s.relayOut c l t).lines = s.lines := rfl
@[simp] theorem State.relayOut_dir (s : State) (c : RelayClass) (l : FLine) (t : Telegram) : (s.relayOut c l t).dir = s.dir := rfl
@[simp] theorem State.relayOut_relay (s : State) (c : RelayClass) (l : FLine) (t : Telegram) : (s.relayOut c l t).relay = s.relay := rfl
@[simp] theorem State.relayOut_polls (s : State) (c : RelayClass) (l : FLine) (t : Telegram) : (s.relayOut c l t).polls = s.polls := rfl
@[simp] theorem State.relayOut_pollHoles (s : State) (c : RelayClass) (l : FLine) (t : Telegram) : (s.relayOut c l t).pollHoles = s.pollHoles := rfl
@[simp] theorem State.relayOut_cycle (s : State) (c : RelayClass) (l : FLine) (t : Telegram) : (s.relayOut c l t).cycle = s.cycle := rfl
@[simp] theorem State.relayOut_mem (s : State) (c : RelayClass) (l : FLine) (t : Telegram) : (s.relayOut c l t).mem = s.mem := rfl

@[simp] theorem State.setUnplaced_pending (s : State) (b : Bool) : (s.setUnplaced b).pending = s.pending := rfl
@[simp] theorem State.setUnplaced_handoffs (s : State) (b : Bool) : (s.setUnplaced b).handoffs = s.handoffs := rfl
@[simp] theorem State.setUnplaced_free (s : State) (b : Bool) : (s.setUnplaced b).free = s.free := rfl
@[simp] theorem State.setUnplaced_elapsed (s : State) (b : Bool) : (s.setUnplaced b).elapsed = s.elapsed := rfl
@[simp] theorem State.setUnplaced_clock (s : State) (b : Bool) : (s.setUnplaced b).clock = s.clock := rfl
@[simp] theorem State.setUnplaced_minuteDue (s : State) (b : Bool) : (s.setUnplaced b).minuteDue = s.minuteDue := rfl
@[simp] theorem State.setUnplaced_runState (s : State) (b : Bool) : (s.setUnplaced b).runState = s.runState := rfl
@[simp] theorem State.setUnplaced_flags (s : State) (b : Bool) : (s.setUnplaced b).flags = setFlag s.flags 7 b := rfl
@[simp] theorem State.setUnplaced_yard (s : State) (b : Bool) : (s.setUnplaced b).yard = s.yard := rfl
@[simp] theorem State.setUnplaced_yardPresent (s : State) (b : Bool) : (s.setUnplaced b).yardPresent = s.yardPresent := rfl
@[simp] theorem State.setUnplaced_yardDamaged (s : State) (b : Bool) : (s.setUnplaced b).yardDamaged = s.yardDamaged := rfl
@[simp] theorem State.setUnplaced_holders (s : State) (b : Bool) : (s.setUnplaced b).holders = s.holders := rfl
@[simp] theorem State.setUnplaced_rateDue (s : State) (b : Bool) : (s.setUnplaced b).rateDue = s.rateDue := rfl
@[simp] theorem State.setUnplaced_valves (s : State) (b : Bool) : (s.setUnplaced b).valves = s.valves := rfl
@[simp] theorem State.setUnplaced_draw (s : State) (b : Bool) : (s.setUnplaced b).draw = s.draw := rfl
@[simp] theorem State.setUnplaced_districts (s : State) (b : Bool) : (s.setUnplaced b).districts = s.districts := rfl
@[simp] theorem State.setUnplaced_boosters (s : State) (b : Bool) : (s.setUnplaced b).boosters = s.boosters := rfl
@[simp] theorem State.setUnplaced_pool (s : State) (b : Bool) : (s.setUnplaced b).pool = s.pool := rfl
@[simp] theorem State.setUnplaced_meters (s : State) (b : Bool) : (s.setUnplaced b).meters = s.meters := rfl
@[simp] theorem State.setUnplaced_acct (s : State) (b : Bool) : (s.setUnplaced b).acct = s.acct := rfl
@[simp] theorem State.setUnplaced_lines (s : State) (b : Bool) : (s.setUnplaced b).lines = s.lines := rfl
@[simp] theorem State.setUnplaced_dir (s : State) (b : Bool) : (s.setUnplaced b).dir = s.dir := rfl
@[simp] theorem State.setUnplaced_relay (s : State) (b : Bool) : (s.setUnplaced b).relay = s.relay := rfl
@[simp] theorem State.setUnplaced_polls (s : State) (b : Bool) : (s.setUnplaced b).polls = s.polls := rfl
@[simp] theorem State.setUnplaced_pollHoles (s : State) (b : Bool) : (s.setUnplaced b).pollHoles = s.pollHoles := rfl
@[simp] theorem State.setUnplaced_cycle (s : State) (b : Bool) : (s.setUnplaced b).cycle = s.cycle := rfl
@[simp] theorem State.setUnplaced_desk (s : State) (b : Bool) : (s.setUnplaced b).desk = s.desk := rfl
@[simp] theorem State.setUnplaced_mem (s : State) (b : Bool) : (s.setUnplaced b).mem = s.mem := rfl

@[simp] theorem State.setLine_pending (s : State) (l : FLine) (u : LineUnit) : (s.setLine l u).pending = s.pending := by cases l <;> rfl
@[simp] theorem State.modLine_pending (s : State) (l : FLine) (g : LineUnit → LineUnit) : (s.modLine l g).pending = s.pending := by
  cases l <;> rfl
@[simp] theorem State.setLine_handoffs (s : State) (l : FLine) (u : LineUnit) : (s.setLine l u).handoffs = s.handoffs := by cases l <;> rfl
@[simp] theorem State.modLine_handoffs (s : State) (l : FLine) (g : LineUnit → LineUnit) : (s.modLine l g).handoffs = s.handoffs := by
  cases l <;> rfl
@[simp] theorem State.setLine_free (s : State) (l : FLine) (u : LineUnit) : (s.setLine l u).free = s.free := by cases l <;> rfl
@[simp] theorem State.modLine_free (s : State) (l : FLine) (g : LineUnit → LineUnit) : (s.modLine l g).free = s.free := by
  cases l <;> rfl
@[simp] theorem State.setLine_elapsed (s : State) (l : FLine) (u : LineUnit) : (s.setLine l u).elapsed = s.elapsed := by cases l <;> rfl
@[simp] theorem State.modLine_elapsed (s : State) (l : FLine) (g : LineUnit → LineUnit) : (s.modLine l g).elapsed = s.elapsed := by
  cases l <;> rfl
@[simp] theorem State.setLine_clock (s : State) (l : FLine) (u : LineUnit) : (s.setLine l u).clock = s.clock := by cases l <;> rfl
@[simp] theorem State.modLine_clock (s : State) (l : FLine) (g : LineUnit → LineUnit) : (s.modLine l g).clock = s.clock := by
  cases l <;> rfl
@[simp] theorem State.setLine_minuteDue (s : State) (l : FLine) (u : LineUnit) : (s.setLine l u).minuteDue = s.minuteDue := by cases l <;> rfl
@[simp] theorem State.modLine_minuteDue (s : State) (l : FLine) (g : LineUnit → LineUnit) : (s.modLine l g).minuteDue = s.minuteDue := by
  cases l <;> rfl
@[simp] theorem State.setLine_runState (s : State) (l : FLine) (u : LineUnit) : (s.setLine l u).runState = s.runState := by cases l <;> rfl
@[simp] theorem State.modLine_runState (s : State) (l : FLine) (g : LineUnit → LineUnit) : (s.modLine l g).runState = s.runState := by
  cases l <;> rfl
@[simp] theorem State.setLine_flags (s : State) (l : FLine) (u : LineUnit) : (s.setLine l u).flags = s.flags := by cases l <;> rfl
@[simp] theorem State.modLine_flags (s : State) (l : FLine) (g : LineUnit → LineUnit) : (s.modLine l g).flags = s.flags := by
  cases l <;> rfl
@[simp] theorem State.setLine_yard (s : State) (l : FLine) (u : LineUnit) : (s.setLine l u).yard = s.yard := by cases l <;> rfl
@[simp] theorem State.modLine_yard (s : State) (l : FLine) (g : LineUnit → LineUnit) : (s.modLine l g).yard = s.yard := by
  cases l <;> rfl
@[simp] theorem State.setLine_yardPresent (s : State) (l : FLine) (u : LineUnit) : (s.setLine l u).yardPresent = s.yardPresent := by cases l <;> rfl
@[simp] theorem State.modLine_yardPresent (s : State) (l : FLine) (g : LineUnit → LineUnit) : (s.modLine l g).yardPresent = s.yardPresent := by
  cases l <;> rfl
@[simp] theorem State.setLine_yardDamaged (s : State) (l : FLine) (u : LineUnit) : (s.setLine l u).yardDamaged = s.yardDamaged := by cases l <;> rfl
@[simp] theorem State.modLine_yardDamaged (s : State) (l : FLine) (g : LineUnit → LineUnit) : (s.modLine l g).yardDamaged = s.yardDamaged := by
  cases l <;> rfl
@[simp] theorem State.setLine_holders (s : State) (l : FLine) (u : LineUnit) : (s.setLine l u).holders = s.holders := by cases l <;> rfl
@[simp] theorem State.modLine_holders (s : State) (l : FLine) (g : LineUnit → LineUnit) : (s.modLine l g).holders = s.holders := by
  cases l <;> rfl
@[simp] theorem State.setLine_rateDue (s : State) (l : FLine) (u : LineUnit) : (s.setLine l u).rateDue = s.rateDue := by cases l <;> rfl
@[simp] theorem State.modLine_rateDue (s : State) (l : FLine) (g : LineUnit → LineUnit) : (s.modLine l g).rateDue = s.rateDue := by
  cases l <;> rfl
@[simp] theorem State.setLine_valves (s : State) (l : FLine) (u : LineUnit) : (s.setLine l u).valves = s.valves := by cases l <;> rfl
@[simp] theorem State.modLine_valves (s : State) (l : FLine) (g : LineUnit → LineUnit) : (s.modLine l g).valves = s.valves := by
  cases l <;> rfl
@[simp] theorem State.setLine_fill (s : State) (l : FLine) (u : LineUnit) : (s.setLine l u).fill = s.fill := by cases l <;> rfl
@[simp] theorem State.modLine_fill (s : State) (l : FLine) (g : LineUnit → LineUnit) : (s.modLine l g).fill = s.fill := by
  cases l <;> rfl
@[simp] theorem State.setLine_draw (s : State) (l : FLine) (u : LineUnit) : (s.setLine l u).draw = s.draw := by cases l <;> rfl
@[simp] theorem State.modLine_draw (s : State) (l : FLine) (g : LineUnit → LineUnit) : (s.modLine l g).draw = s.draw := by
  cases l <;> rfl
@[simp] theorem State.setLine_districts (s : State) (l : FLine) (u : LineUnit) : (s.setLine l u).districts = s.districts := by cases l <;> rfl
@[simp] theorem State.modLine_districts (s : State) (l : FLine) (g : LineUnit → LineUnit) : (s.modLine l g).districts = s.districts := by
  cases l <;> rfl
@[simp] theorem State.setLine_boosters (s : State) (l : FLine) (u : LineUnit) : (s.setLine l u).boosters = s.boosters := by cases l <;> rfl
@[simp] theorem State.modLine_boosters (s : State) (l : FLine) (g : LineUnit → LineUnit) : (s.modLine l g).boosters = s.boosters := by
  cases l <;> rfl
@[simp] theorem State.setLine_pool (s : State) (l : FLine) (u : LineUnit) : (s.setLine l u).pool = s.pool := by cases l <;> rfl
@[simp] theorem State.modLine_pool (s : State) (l : FLine) (g : LineUnit → LineUnit) : (s.modLine l g).pool = s.pool := by
  cases l <;> rfl
@[simp] theorem State.setLine_meters (s : State) (l : FLine) (u : LineUnit) : (s.setLine l u).meters = s.meters := by cases l <;> rfl
@[simp] theorem State.modLine_meters (s : State) (l : FLine) (g : LineUnit → LineUnit) : (s.modLine l g).meters = s.meters := by
  cases l <;> rfl
@[simp] theorem State.setLine_acct (s : State) (l : FLine) (u : LineUnit) : (s.setLine l u).acct = s.acct := by cases l <;> rfl
@[simp] theorem State.modLine_acct (s : State) (l : FLine) (g : LineUnit → LineUnit) : (s.modLine l g).acct = s.acct := by
  cases l <;> rfl
@[simp] theorem State.setLine_dir (s : State) (l : FLine) (u : LineUnit) : (s.setLine l u).dir = s.dir := by cases l <;> rfl
@[simp] theorem State.modLine_dir (s : State) (l : FLine) (g : LineUnit → LineUnit) : (s.modLine l g).dir = s.dir := by
  cases l <;> rfl
@[simp] theorem State.setLine_relay (s : State) (l : FLine) (u : LineUnit) : (s.setLine l u).relay = s.relay := by cases l <;> rfl
@[simp] theorem State.modLine_relay (s : State) (l : FLine) (g : LineUnit → LineUnit) : (s.modLine l g).relay = s.relay := by
  cases l <;> rfl
@[simp] theorem State.setLine_polls (s : State) (l : FLine) (u : LineUnit) : (s.setLine l u).polls = s.polls := by cases l <;> rfl
@[simp] theorem State.modLine_polls (s : State) (l : FLine) (g : LineUnit → LineUnit) : (s.modLine l g).polls = s.polls := by
  cases l <;> rfl
@[simp] theorem State.setLine_pollHoles (s : State) (l : FLine) (u : LineUnit) : (s.setLine l u).pollHoles = s.pollHoles := by cases l <;> rfl
@[simp] theorem State.modLine_pollHoles (s : State) (l : FLine) (g : LineUnit → LineUnit) : (s.modLine l g).pollHoles = s.pollHoles := by
  cases l <;> rfl
@[simp] theorem State.setLine_cycle (s : State) (l : FLine) (u : LineUnit) : (s.setLine l u).cycle = s.cycle := by cases l <;> rfl
@[simp] theorem State.modLine_cycle (s : State) (l : FLine) (g : LineUnit → LineUnit) : (s.modLine l g).cycle = s.cycle := by
  cases l <;> rfl
@[simp] theorem State.setLine_desk (s : State) (l : FLine) (u : LineUnit) : (s.setLine l u).desk = s.desk := by cases l <;> rfl
@[simp] theorem State.modLine_desk (s : State) (l : FLine) (g : LineUnit → LineUnit) : (s.modLine l g).desk = s.desk := by
  cases l <;> rfl
@[simp] theorem State.setLine_mem (s : State) (l : FLine) (u : LineUnit) : (s.setLine l u).mem = s.mem := by cases l <;> rfl
@[simp] theorem State.modLine_mem (s : State) (l : FLine) (g : LineUnit → LineUnit) : (s.modLine l g).mem = s.mem := by
  cases l <;> rfl

@[simp] theorem State.line_setLine (s : State) (l k : FLine) (u : LineUnit) :
    (s.setLine l u).line k = if k = l then u else s.line k := by cases l <;> cases k <;> rfl

@[simp] theorem State.line_modLine (s : State) (l k : FLine) (g : LineUnit → LineUnit) :
    (s.modLine l g).line k = if k = l then g (s.line l) else s.line k := by cases l <;> cases k <;> rfl

end Sys2Proof.Machine
end

