-- ==== Sys2Proof/Laws/Tables.lean ====
section
/-! SUPPORT. Tables keyed by number: reading after writing, and the canonical form that every write keeps. -/

namespace Sys2Proof.Machine

theorem tblGet_tblPut {α : Type} (t : Tbl α) (n m : Nat) (a : α) :
    tblGet (tblPut t n a) m = if m = n then some a else tblGet t m := by
  induction t with
  | nil => simp [tblPut, tblGet, eq_comm]
  | cons p r ih =>
    obtain ⟨k, b⟩ := p
    unfold tblPut
    split
    · simp [tblGet, eq_comm]
    · split
      · subst_vars; simp only [tblGet]; split <;> simp_all [eq_comm]
      · simp only [tblGet, ih]
        by_cases h1 : k = m <;> by_cases h2 : m = n <;> simp_all

@[simp] theorem tblGet_tblPut_self {α : Type} (t : Tbl α) (n : Nat) (a : α) : tblGet (tblPut t n a) n = some a := by
  simp [tblGet_tblPut]

theorem mem_of_tblGet {α : Type} {t : Tbl α} {n : Nat} {a : α} (h : tblGet t n = some a) : (n, a) ∈ t := by
  induction t with
  | nil => cases h
  | cons p t ih =>
    simp only [tblGet] at h
    split at h
    · next e => cases h; exact List.mem_cons.2 (.inl (Prod.ext (by simpa using e.symm) rfl))
    · exact List.mem_cons_of_mem _ (ih h)

theorem tblGet_map {α β : Type} (t : Tbl α) (f : Nat × α → β) (n : Nat) :
    tblGet (t.map fun p => (p.1, f p)) n = (tblGet t n).map fun a => f (n, a) := by
  induction t with
  | nil => rfl
  | cons p r ih =>
    obtain ⟨k, b⟩ := p
    simp only [List.map_cons, tblGet]
    split
    · subst_vars; rfl
    · exact ih

/-- A key of a table after a write is the key written or one held before. -/
theorem tblPut_keys {α : Type} (t : Tbl α) (n : Nat) (a : α) : ∀ k ∈ (tblPut t n a).map Prod.fst, k = n ∨ k ∈ t.map Prod.fst := by
  induction t with
  | nil => simp [tblPut]
  | cons p r ih =>
    obtain ⟨j, b⟩ := p
    unfold tblPut
    split
    · simp
    · split
      · subst_vars; simp
      · intro k hk
        simp only [List.map_cons, List.mem_cons] at hk ⊢
        rcases hk with rfl | hk
        · simp
        · rcases ih k hk with h | h
          · exact .inl h
          · exact .inr (.inr h)

/-- A write keeps the canonical form. -/
theorem tblPut_wf {α : Type} (t : Tbl α) (n : Nat) (a : α) (h : tblWf t = true) : tblWf (tblPut t n a) = true := by
  unfold tblWf at *
  simp only [decide_eq_true_eq] at *
  induction t with
  | nil => simp [tblPut]
  | cons p r ih =>
    obtain ⟨j, b⟩ := p
    simp only [List.map_cons, List.pairwise_cons] at h
    unfold tblPut
    split
    · simp only [List.map_cons, List.pairwise_cons, List.mem_cons]
      refine ⟨?_, h⟩
      rintro k (rfl | hk)
      · assumption
      · have := h.1 k hk; omega
    · split
      · subst_vars; simpa using h
      · simp only [List.map_cons, List.pairwise_cons]
        refine ⟨fun k hk => ?_, ih h.2⟩
        rcases tblPut_keys r n a k hk with rfl | hk
        · omega
        · exact h.1 k hk

/-- A change of the records alone keeps the canonical form. -/
theorem tblWf_map {α : Type} (t : Tbl α) (f : Nat × α → α) : tblWf (t.map fun p => (p.1, f p)) = tblWf t := by
  simp [tblWf, Function.comp_def]

/-- The keys after a write do not depend on the record written. -/
theorem tblPut_keysEq {α : Type} (t : Tbl α) (n : Nat) (x y : α) : (tblPut t n x).map Prod.fst = (tblPut t n y).map Prod.fst := by
  induction t with
  | nil => rfl
  | cons p r ih =>
    obtain ⟨j, b⟩ := p
    simp only [tblPut]
    split
    · rfl
    · split
      · rfl
      · simp [ih]

theorem tblDel_sublist {α : Type} (t : Tbl α) (n : Nat) : (tblDel t n).Sublist t := by
  induction t with
  | nil => exact .slnil
  | cons p r ih =>
    unfold tblDel
    split
    · exact List.sublist_cons_self _ _
    · exact ih.cons_cons _

/-- Of two writes of one number the second stands. -/
@[simp] theorem tblPut_tblPut {α : Type} (t : Tbl α) (n : Nat) (a b : α) : tblPut (tblPut t n a) n b = tblPut t n b := by
  induction t with
  | nil => simp [tblPut]
  | cons p r ih =>
    obtain ⟨k, c⟩ := p
    by_cases h : n < k
    · simp [tblPut, h]
    · by_cases e : n = k <;> simp [tblPut, h, e, ih]

/-- A removal keeps the canonical form. -/
theorem tblDel_wf {α : Type} (t : Tbl α) (n : Nat) (h : tblWf t = true) : tblWf (tblDel t n) = true := by
  unfold tblWf at *
  simp only [decide_eq_true_eq] at *
  exact h.sublist ((tblDel_sublist t n).map _)

@[simp] theorem State.setHolder_setHolder (s : State) (n : Nat) (x y : Holder) : (s.setHolder n x).setHolder n y = s.setHolder n y := by
  simp [State.setHolder]

@[simp] theorem State.setValve_setValve (s : State) (n : Nat) (x y : Valve) : (s.setValve n x).setValve n y = s.setValve n y := by
  simp [State.setValve]

@[simp] theorem State.setDistrict_setDistrict (s : State) (n : Nat) (x y : District) :
    (s.setDistrict n x).setDistrict n y = s.setDistrict n y := by
  simp [State.setDistrict]

@[simp] theorem State.setBooster_setBooster (s : State) (n : Nat) (x y : Booster) :
    (s.setBooster n x).setBooster n y = s.setBooster n y := by
  simp [State.setBooster]

@[simp] theorem State.setMeter_setMeter (s : State) (n : Nat) (x y : Meter) : (s.setMeter n x).setMeter n y = s.setMeter n y := by
  simp [State.setMeter]

@[simp] theorem State.setLine_setLine (s : State) (l : FLine) (u v : LineUnit) : (s.setLine l u).setLine l v = s.setLine l v := by
  cases l <;> rfl

@[simp] theorem State.holder_setHolder (s : State) (n m : Nat) (x : Holder) :
    (s.setHolder n x).holder m = if m = n then some x else s.holder m := tblGet_tblPut _ _ _ _

@[simp] theorem State.valve_setValve (s : State) (n m : Nat) (x : Valve) :
    (s.setValve n x).valve m = if m = n then some x else s.valve m := tblGet_tblPut _ _ _ _

@[simp] theorem State.district_setDistrict (s : State) (n m : Nat) (x : District) :
    (s.setDistrict n x).district m = if m = n then some x else s.district m := tblGet_tblPut _ _ _ _

@[simp] theorem State.booster_setBooster (s : State) (n m : Nat) (x : Booster) :
    (s.setBooster n x).booster m = if m = n then some x else s.booster m := tblGet_tblPut _ _ _ _

@[simp] theorem State.entry_setEntry (s : State) (n m : Nat) (x : DirEntry) :
    (s.setEntry n x).entry m = if m = n then some x else s.entry m := tblGet_tblPut _ _ _ _

@[simp] theorem State.meter_setMeter (s : State) (n m : Nat) (x : Meter) :
    (s.setMeter n x).meter m = if m = n then x else s.meter m := by
  simp only [State.meter, State.setMeter, tblGet_tblPut]
  split <;> rfl

end Sys2Proof.Machine
end

