-- ==== Sys2Proof/Laws/Kept.lean ====
section
/-! SUPPORT. What no hand-off between units changes: the tables, the settings, the run state, the clock, the polling, and,
for the hand-offs that no report is behind, the directory, the samples and the exchanges too. -/

set_option Elab.async false

namespace Sys2Proof.Machine

/-! ### What is kept -/

/-- What every hand-off leaves of a holder. -/
@[simp] def holderView (x : Holder) : HolderRec × Bool × Bool × Bool := (x.tab, x.damaged, x.rt.fillBar, x.rt.drawBar)

/-- What a plain hand-off leaves of a holder: all but the blind grace timer, the park slot and the noticed flags. -/
@[simp] def holderCalm (x : Holder) : Holder :=
  { x with rt := { x.rt with noticed := ⟨false, false, false, false⟩, graceDue := none, park := none } }

@[simp] def valveView (x : Valve) : ValveRec × Bool := (x.tab, x.damaged)
@[simp] def valveCalm (x : Valve) : ValveRec × Bool × Bool := (x.tab, x.damaged, x.localHand)
@[simp] def districtView (x : District) : DistrictRec × Bool := (x.tab, x.damaged)

/-- What a plain hand-off leaves of a district: its record, and what its stations and the minute have told. -/
@[simp] def districtCalm (x : District) : DistrictRec × Bool × (Option Pressure × Bool × Option Nat × Limit × Bool) × (Option Nat × Option Nat × Nat × Nat) :=
  (x.tab, x.damaged, (x.rt.last, x.rt.recorderFault, x.rt.position, x.rt.limit, x.rt.governorFault),
    (x.rt.minP, x.rt.maxP, x.rt.shedMin, x.rt.boostMin))

@[simp] def boosterView (x : Booster) : BoosterRec × Bool := (x.tab, x.damaged)
@[simp] def meterView (m : Meter) : Option Nat × Nat × Nat × Bool := (m.station, m.weight, m.limit, m.damaged)

/-- What every hand-off leaves of a line. -/
@[simp] def lineView (u : LineUnit) : LineUnit :=
  { u with mode := .idle, selected := none, sending := none, exch := none, q0 := [], q1 := [], q2 := [], owner := .q1, turns := 0, rate := 0 }

/-- What a plain hand-off leaves of a line. -/
@[simp] def lineCalm (u : LineUnit) : LineUnit :=
  { u with selected := none, q0 := [], q1 := [], q2 := [], owner := .q1, turns := 0 }

@[simp] def fillView (f : Fill) : Fill :=
  { f with filling := none, chg := none, selDue := false, unplaced := false, stray := [] }

@[simp] def drawView (d : Draw) : DrawRec × Bool × Mode × Bool := (d.tab, d.recDamaged, d.mode, d.modeDamaged)
@[simp] def poolView (p : Pool) : Mode × Bool := (p.mode, p.modeDamaged)
@[simp] def relayView (r : Relay) : Relay := { r with agingDue := none }

/-- What no hand-off changes. -/
structure Standing where
  pending : List Instr
  elapsed : Nat
  clock : Clock
  minuteDue : Bool
  runState : RunState
  lowFlags : BitVec 8
  yard : YardRec × Bool × Bool
  rateDue : Nat
  holder : Nat → Option (HolderRec × Bool × Bool × Bool)
  valve : Nat → Option (ValveRec × Bool)
  district : Nat → Option (DistrictRec × Bool)
  booster : Nat → Option (BoosterRec × Bool)
  meter : Nat → Option Nat × Nat × Nat × Bool
  fill : Fill
  draw : DrawRec × Bool × Mode × Bool
  pool : Mode × Bool
  ring : List AccountRecord
  number : Nat
  line : FLine → LineUnit
  relay : Relay
  polls : Tbl PollPos
  pollHoles : List Nat
  cycle : Cycle
  rx : List Telegram
  staged : Option Staged
  receiving : Bool
  mem : TableMem

def State.kept (s : State) : Standing :=
  { pending := s.pending, elapsed := s.elapsed, clock := s.clock, minuteDue := s.minuteDue, runState := s.runState,
    lowFlags := s.flags &&& 0x3F#8, yard := (s.yard, s.yardPresent, s.yardDamaged), rateDue := s.rateDue,
    holder := fun n => (s.holder n).map holderView, valve := fun n => (s.valve n).map valveView,
    district := fun n => (s.district n).map districtView, booster := fun n => (s.booster n).map boosterView,
    meter := fun n => meterView (s.meter n), fill := fillView s.fill, draw := drawView s.draw, pool := poolView s.pool,
    ring := s.acct.ring, number := s.acct.openAcct.number, line := fun l => lineView (s.line l), relay := relayView s.relay,
    polls := s.polls, pollHoles := s.pollHoles, cycle := s.cycle, rx := s.desk.rx, staged := s.desk.staged,
    receiving := s.desk.receiving, mem := s.mem }

/-- What no plain hand-off changes. -/
structure Calm where
  pending : List Instr
  free : Nat
  elapsed : Nat
  clock : Clock
  minuteDue : Bool
  runState : RunState
  lowFlags : BitVec 8
  yard : YardRec × Bool × Bool
  rateDue : Nat
  holder : Nat → Option Holder
  valve : Nat → Option (ValveRec × Bool × Bool)
  district : Nat → Option (DistrictRec × Bool × (Option Pressure × Bool × Option Nat × Limit × Bool) × (Option Nat × Option Nat × Nat × Nat))
  booster : Nat → Option (BoosterRec × Bool)
  meters : Tbl Meter
  fill : Fill
  draw : DrawRec × Bool × Mode × Bool
  pool : Mode × Bool
  ring : List AccountRecord
  number : Nat
  line : FLine → LineUnit
  dir : Tbl DirEntry
  relay : Relay
  polls : Tbl PollPos
  pollHoles : List Nat
  cycle : Cycle
  rx : List Telegram
  staged : Option Staged
  receiving : Bool
  mem : TableMem

def State.calm (s : State) : Calm :=
  { pending := s.pending, free := s.free, elapsed := s.elapsed, clock := s.clock, minuteDue := s.minuteDue,
    runState := s.runState, lowFlags := s.flags &&& 0x3F#8, yard := (s.yard, s.yardPresent, s.yardDamaged),
    rateDue := s.rateDue, holder := fun n => (s.holder n).map holderCalm, valve := fun n => (s.valve n).map valveCalm,
    district := fun n => (s.district n).map districtCalm, booster := fun n => (s.booster n).map boosterView,
    meters := s.meters, fill := fillView s.fill, draw := drawView s.draw, pool := poolView s.pool, ring := s.acct.ring,
    number := s.acct.openAcct.number, line := fun l => lineCalm (s.line l), dir := s.dir, relay := s.relay,
    polls := s.polls, pollHoles := s.pollHoles, cycle := s.cycle, rx := s.desk.rx, staged := s.desk.staged,
    receiving := s.desk.receiving, mem := s.mem }

/-- What is kept of the soundness of a state by every hand-off. -/
def Sound (s : State) : Prop := DeskSound s.desk ∧ FlagsSound s ∧ TablesSound s

/-- The hand-offs that no report and no damage is behind, and that are no answer. -/
def plain : Handoff → Bool
  | .valveTold _ true _ | .orderEnded _ (.ack _) | .judge _ _ | .addCause _ _ | .stationLost _ | .owner _ | .lineIdle _
  | .reply _ _ _ _ _ | .replyRunState _ _ _ _ _ | .replyFlags _ | .damaged _ => false
  | _ => true

/-- `t` comes from `s` by plain work: what is calm stands, the last answer stands, and only plain hand-offs are made. -/
structure PlainStep (s t : State) : Prop where
  calm : t.calm = s.calm
  answer : t.desk.lastAnswer = s.desk.lastAnswer
  sound : Sound s → Sound t
  made : ∃ hs, t.handoffs = s.handoffs ++ hs ∧ hs.all plain = true

theorem PlainStep.refl (s : State) : PlainStep s s := ⟨rfl, rfl, id, [], by simp⟩

theorem PlainStep.trans {a b c : State} (h : PlainStep a b) (k : PlainStep b c) : PlainStep a c := by
  obtain ⟨hs, e1, p1⟩ := h.made
  obtain ⟨ks, e2, p2⟩ := k.made
  exact ⟨k.calm.trans h.calm, k.answer.trans h.answer, fun x => k.sound (h.sound x), hs ++ ks, by simp [e1, e2], by simp_all⟩

theorem State.kept_of_calm {s t : State} (h : t.calm = s.calm) : t.kept = s.kept := by
  have hh : ∀ n, (t.holder n).map holderView = (s.holder n).map holderView := fun n => by
    have e := congrFun (congrArg Calm.holder h) n
    simp only [State.calm] at e
    cases ht : t.holder n <;> cases hs : s.holder n <;> simp_all [holderCalm, holderView]
  have hv : ∀ n, (t.valve n).map valveView = (s.valve n).map valveView := fun n => by
    have e := congrFun (congrArg Calm.valve h) n
    simp only [State.calm] at e
    cases ht : t.valve n <;> cases hs : s.valve n <;> simp_all [valveCalm, valveView]
  have hd : ∀ n, (t.district n).map districtView = (s.district n).map districtView := fun n => by
    have e := congrFun (congrArg Calm.district h) n
    simp only [State.calm] at e
    cases ht : t.district n <;> cases hs : s.district n <;> simp_all [districtCalm, districtView]
  have hl : ∀ l, lineView (t.line l) = lineView (s.line l) := fun l => by
    have e := congrFun (congrArg Calm.line h) l
    simp only [State.calm, lineCalm, LineUnit.mk.injEq] at e
    simp [lineView, e]
  have hm : t.meters = s.meters := congrArg Calm.meters h
  have hm' : ∀ n, t.meter n = s.meter n := fun n => by simp [State.meter, hm]
  simp only [State.calm, Calm.mk.injEq] at h
  simp only [State.kept, Standing.mk.injEq]
  simp_all

end Sys2Proof.Machine
end

