-- ==== Sys2Proof/Laws/Plain.lean ====
section
/-! SUPPORT. The operations of the units as plain work: one lemma for each, which says all that later proofs need of it. -/

set_option Elab.async false

namespace Sys2Proof.Machine

variable {a s : State}

/-! ### Changes that keep what is calm -/

def KeepsHolder (f : HolderRt → HolderRt) : Prop := ∀ x : Holder, holderCalm { x with rt := f x.rt } = holderCalm x
def KeepsDistrict (f : DistrictRt → DistrictRt) : Prop := ∀ x : District, districtCalm { x with rt := f x.rt } = districtCalm x
def KeepsBooster (f : Booster → Booster) : Prop := ∀ x, boosterView (f x) = boosterView x
def KeepsFill (f : Fill → Fill) : Prop := ∀ x, fillView (f x) = fillView x ∧ (f x).unplaced = x.unplaced
def KeepsDraw (f : Draw → Draw) : Prop := ∀ x, drawView (f x) = drawView x
def KeepsPool (f : Pool → Pool) : Prop := ∀ x, poolView (f x) = poolView x ∧ (f x).level = x.level
def KeepsLine (f : LineUnit → LineUnit) : Prop := ∀ u, lineCalm (f u) = lineCalm u

/-- The hand-offs made are plain. -/
def Plain (hs : List Handoff) : Prop := hs.all plain = true
/-- `y` may stand in place of the holder held. -/
def HolderLike (o : Option Holder) (y : Holder) : Prop := o.map holderCalm = some (holderCalm y)
def ValveLike (o : Option Valve) (y : Valve) : Prop := o.map valveCalm = some (valveCalm y)
def DistrictLike (o : Option District) (y : District) : Prop := o.map districtCalm = some (districtCalm y)
def BoosterLike (o : Option Booster) (y : Booster) : Prop := o.map boosterView = some (boosterView y)

@[simp] theorem holderLike_some (x y : Holder) : HolderLike (some x) y ↔ holderCalm x = holderCalm y :=
  ⟨Option.some.inj, congrArg some⟩
@[simp] theorem valveLike_some (x y : Valve) : ValveLike (some x) y ↔ valveCalm x = valveCalm y := ⟨Option.some.inj, congrArg some⟩
@[simp] theorem districtLike_some (x y : District) : DistrictLike (some x) y ↔ districtCalm x = districtCalm y :=
  ⟨Option.some.inj, congrArg some⟩
@[simp] theorem boosterLike_some (x y : Booster) : BoosterLike (some x) y ↔ boosterView x = boosterView y :=
  ⟨Option.some.inj, congrArg some⟩

@[simp] theorem plain_nil : Plain [] ↔ True := ⟨fun _ => trivial, fun _ => rfl⟩
@[simp] theorem plain_cons (h : Handoff) (hs : List Handoff) : Plain (h :: hs) ↔ plain h = true ∧ Plain hs := by simp [Plain]
@[simp] theorem plain_append (hs ks : List Handoff) : Plain (hs ++ ks) ↔ Plain hs ∧ Plain ks := by simp [Plain]
@[simp] theorem plain_ite (c : Prop) [Decidable c] (hs ks : List Handoff) :
    Plain (if c then hs else ks) ↔ if c then Plain hs else Plain ks := by split <;> rfl
theorem plain_iff (hs : List Handoff) : Plain hs ↔ ∀ h ∈ hs, plain h = true := by simp [Plain]
@[simp] theorem plain_map {α : Type} (l : List α) (f : α → Handoff) : Plain (l.map f) ↔ ∀ x ∈ l, plain (f x) = true := by
  simp [Plain]
@[simp] theorem plain_flatMap {α : Type} (l : List α) (f : α → List Handoff) : Plain (l.flatMap f) ↔ ∀ x ∈ l, Plain (f x) := by
  simp [Plain]
@[simp] theorem plain_filterMap {α : Type} (l : List α) (f : α → Option Handoff) :
    Plain (l.filterMap f) ↔ ∀ x ∈ l, ∀ y, f x = some y → plain y = true := by
  simp only [plain_iff, List.mem_filterMap]
  exact ⟨fun h x m y e => h y ⟨x, m, e⟩, fun h y ⟨x, m, e⟩ => h x m y e⟩

@[simp] theorem keepsHolder_iff (f : HolderRt → HolderRt) :
    KeepsHolder f ↔ ∀ x : Holder, holderCalm { x with rt := f x.rt } = holderCalm x := ⟨id, id⟩
@[simp] theorem keepsDistrict_iff (f : DistrictRt → DistrictRt) :
    KeepsDistrict f ↔ ∀ x : District, districtCalm { x with rt := f x.rt } = districtCalm x := ⟨id, id⟩
@[simp] theorem keepsBooster_iff (f : Booster → Booster) : KeepsBooster f ↔ ∀ x, boosterView (f x) = boosterView x := ⟨id, id⟩
@[simp] theorem keepsFill_iff (f : Fill → Fill) : KeepsFill f ↔ ∀ x, fillView (f x) = fillView x ∧ (f x).unplaced = x.unplaced :=
  ⟨id, id⟩
@[simp] theorem keepsDraw_iff (f : Draw → Draw) : KeepsDraw f ↔ ∀ x, drawView (f x) = drawView x := ⟨id, id⟩
@[simp] theorem keepsPool_iff (f : Pool → Pool) : KeepsPool f ↔ ∀ x, poolView (f x) = poolView x ∧ (f x).level = x.level :=
  ⟨id, id⟩

/-! ### Updates -/

@[simp] theorem State.hand_plain (h : PlainStep a s) {hs : List Handoff} (p : Plain hs) : PlainStep a (s.hand hs) :=
  h.trans ⟨rfl, rfl, id, hs, rfl, p⟩

theorem placeOther_sound {d : Desk} (o : DeskOut) (h : DeskSound d) : DeskSound (placeOther o d) := by
  unfold placeOther
  split
  · next k => exact ⟨h.1, by simp only [List.length_append, List.length_singleton, Config.deskTxOtherCap, Config.deskTxCap] at *; omega, h.2.2⟩
  · exact h

theorem answerRoom_le (owed : Bool) : answerRoom owed ≤ Config.deskTxCap := by cases owed <;> decide

theorem placeAnswer_sound {d : Desk} {owed : Bool} (tag c : Nat) (r : Result) (w : Option Reason) (x : AnswerData)
    (h : DeskSound d) : DeskSound (placeAnswer tag r c w x d owed) := by
  unfold placeAnswer
  split
  · next k =>
    refine ⟨h.1, ?_, h.2.2⟩
    have room := answerRoom_le owed
    simp only [List.length_append, List.length_singleton]
    omega
  · exact h

theorem addNotice_sound {d : Desk} (n : Notice) (h : DeskSound d) : DeskSound (addNotice n d) := by
  unfold addNotice
  apply placeOther_sound
  simp only [DeskSound, Config.noticeCap] at *
  refine ⟨h.1, h.2.1, ?_, by omega⟩
  rw [List.length_append]
  by_cases k : 32 ≤ d.notices.length
  · simp only [k, if_true, List.length_drop, List.length_singleton]; omega
  · simp only [k, if_false, List.length_singleton]; omega

@[simp] theorem placeOther_rx (o : DeskOut) (d : Desk) : (placeOther o d).rx = d.rx := by unfold placeOther; split <;> rfl
@[simp] theorem placeOther_staged (o : DeskOut) (d : Desk) : (placeOther o d).staged = d.staged := by unfold placeOther; split <;> rfl
@[simp] theorem placeOther_receiving (o : DeskOut) (d : Desk) : (placeOther o d).receiving = d.receiving := by unfold placeOther; split <;> rfl
@[simp] theorem placeOther_lastAnswer (o : DeskOut) (d : Desk) : (placeOther o d).lastAnswer = d.lastAnswer := by unfold placeOther; split <;> rfl
@[simp] theorem addNotice_rx (n : Notice) (d : Desk) : (addNotice n d).rx = d.rx := by simp [addNotice]
@[simp] theorem addNotice_staged (n : Notice) (d : Desk) : (addNotice n d).staged = d.staged := by simp [addNotice]
@[simp] theorem addNotice_receiving (n : Notice) (d : Desk) : (addNotice n d).receiving = d.receiving := by simp [addNotice]
@[simp] theorem addNotice_lastAnswer (n : Notice) (d : Desk) : (addNotice n d).lastAnswer = d.lastAnswer := by simp [addNotice]
@[simp] theorem placeAnswer_rx (t c : Nat) (r : Result) (w : Option Reason) (x : AnswerData) (d : Desk) (owed : Bool) :
    (placeAnswer t r c w x d owed).rx = d.rx := by unfold placeAnswer; split <;> rfl
@[simp] theorem placeAnswer_staged (t c : Nat) (r : Result) (w : Option Reason) (x : AnswerData) (d : Desk) (owed : Bool) :
    (placeAnswer t r c w x d owed).staged = d.staged := by unfold placeAnswer; split <;> rfl
@[simp] theorem placeAnswer_receiving (t c : Nat) (r : Result) (w : Option Reason) (x : AnswerData) (d : Desk) (owed : Bool) :
    (placeAnswer t r c w x d owed).receiving = d.receiving := by unfold placeAnswer; split <;> rfl
@[simp] theorem placeAnswer_lastAnswer (t c : Nat) (r : Result) (w : Option Reason) (x : AnswerData) (d : Desk) (owed : Bool) :
    (placeAnswer t r c w x d owed).lastAnswer = d.lastAnswer := by unfold placeAnswer; split <;> rfl

/-- A change of the desk that keeps what is calm of it. -/
@[simp] theorem State.desk_plain (h : PlainStep a s) {d : Desk} (rx : d.rx = s.desk.rx) (st : d.staged = s.desk.staged)
    (rc : d.receiving = s.desk.receiving) (la : d.lastAnswer = s.desk.lastAnswer) (so : DeskSound s.desk → DeskSound d) :
    PlainStep a { s with desk := d } :=
  h.trans ⟨by simp [State.calm, rx, st, rc]; exact ⟨rfl, rfl, rfl, rfl, rfl⟩, la, fun x => ⟨so x.1, x.2.1, x.2.2⟩, [], by simp⟩

@[simp] theorem State.notify_plain (h : PlainStep a s) {k : NoticeKind} {b : Subject} {d : Detail} : PlainStep a (s.notify k b d) :=
  State.desk_plain h (by simp) (by simp) (by simp) (by simp) (addNotice_sound _)

@[simp] theorem State.answerRelayed_plain (h : PlainStep a s) {t c st : Nat} {r : Result} {w : Option Reason} {owed : Bool} :
    PlainStep a (s.answerRelayed t c r w st owed) :=
  State.desk_plain h (by simp) (by simp) (by simp) (by simp) (placeAnswer_sound _ _ _ _ _)

@[simp] theorem State.answerOrder_plain (h : PlainStep a s) {g : DeskRef} {r : Result} {w : Option Reason} {owed : Bool} :
    PlainStep a (s.answerOrder g r w owed) := State.answerRelayed_plain h

@[simp] theorem State.relayOut_plain (h : PlainStep a s) {c : RelayClass} {l : FLine} {t : Telegram} : PlainStep a (s.relayOut c l t) :=
  State.desk_plain h (by simp) (by simp) (by simp) (by simp) (placeOther_sound _)

theorem tblView_put {α β : Type} (t : Tbl α) (n : Nat) (y : α) (f : α → β) (e : (tblGet t n).map f = some (f y)) (m : Nat) :
    (tblGet (tblPut t n y) m).map f = (tblGet t m).map f := by
  rw [tblGet_tblPut]
  split
  · subst_vars; simp [e]
  · rfl

@[simp] theorem State.setHolder_plain (h : PlainStep a s) {n : Nat} {y : Holder} (e : HolderLike (s.holder n) y) :
    PlainStep a (s.setHolder n y) :=
  h.trans ⟨by simp only [State.calm, Calm.mk.injEq]
              exact ⟨rfl, rfl, rfl, rfl, rfl, rfl, rfl, rfl, rfl, funext (tblView_put _ _ _ _ e), rfl, rfl, rfl, rfl, rfl, rfl, rfl, rfl,
                rfl, rfl, rfl, rfl, rfl, rfl, rfl, rfl, rfl, rfl, rfl⟩,
    rfl, fun x => ⟨x.1, x.2.1, tblPut_wf _ _ _ x.2.2.1, x.2.2.2⟩, [], by simp⟩

@[simp] theorem State.setValve_plain (h : PlainStep a s) {n : Nat} {y : Valve} (e : ValveLike (s.valve n) y) :
    PlainStep a (s.setValve n y) :=
  h.trans ⟨by simp only [State.calm, Calm.mk.injEq]
              exact ⟨rfl, rfl, rfl, rfl, rfl, rfl, rfl, rfl, rfl, rfl, funext (tblView_put _ _ _ _ e), rfl, rfl, rfl, rfl, rfl, rfl, rfl,
                rfl, rfl, rfl, rfl, rfl, rfl, rfl, rfl, rfl, rfl, rfl⟩,
    rfl, fun x => ⟨x.1, x.2.1, x.2.2.1, tblPut_wf _ _ _ x.2.2.2.1, x.2.2.2.2⟩, [], by simp⟩

@[simp] theorem State.setDistrict_plain (h : PlainStep a s) {n : Nat} {y : District}
    (e : DistrictLike (s.district n) y) : PlainStep a (s.setDistrict n y) :=
  h.trans ⟨by simp only [State.calm, Calm.mk.injEq]
              exact ⟨rfl, rfl, rfl, rfl, rfl, rfl, rfl, rfl, rfl, rfl, rfl, funext (tblView_put _ _ _ _ e), rfl, rfl, rfl, rfl, rfl, rfl,
                rfl, rfl, rfl, rfl, rfl, rfl, rfl, rfl, rfl, rfl, rfl⟩,
    rfl, fun x => ⟨x.1, x.2.1, x.2.2.1, x.2.2.2.1, tblPut_wf _ _ _ x.2.2.2.2.1, x.2.2.2.2.2⟩, [], by simp⟩

@[simp] theorem State.setBooster_plain (h : PlainStep a s) {n : Nat} {y : Booster}
    (e : BoosterLike (s.booster n) y) : PlainStep a (s.setBooster n y) :=
  h.trans ⟨by simp only [State.calm, Calm.mk.injEq]
              exact ⟨rfl, rfl, rfl, rfl, rfl, rfl, rfl, rfl, rfl, rfl, rfl, rfl, funext (tblView_put _ _ _ _ e), rfl, rfl, rfl, rfl, rfl,
                rfl, rfl, rfl, rfl, rfl, rfl, rfl, rfl, rfl, rfl, rfl⟩,
    rfl, fun x => ⟨x.1, x.2.1, x.2.2.1, x.2.2.2.1, x.2.2.2.2.1, tblPut_wf _ _ _ x.2.2.2.2.2.1, x.2.2.2.2.2.2⟩, [], by simp⟩

@[simp] theorem State.modHolder_plain (h : PlainStep a s) {n : Nat} {f : HolderRt → HolderRt}
    (e : KeepsHolder f) : PlainStep a (s.modHolder n f) := by
  unfold State.modHolder
  split
  · next x hx => exact State.setHolder_plain h (by rw [hx]; exact congrArg some (e x).symm)
  · exact h

@[simp] theorem State.modDistrict_plain (h : PlainStep a s) {n : Nat} {f : DistrictRt → DistrictRt}
    (e : KeepsDistrict f) : PlainStep a (s.modDistrict n f) := by
  unfold State.modDistrict
  split
  · next x hx => exact State.setDistrict_plain h (by rw [hx]; exact congrArg some (e x).symm)
  · exact h

@[simp] theorem State.modBooster_plain (h : PlainStep a s) {n : Nat} {f : Booster → Booster}
    (e : KeepsBooster f) : PlainStep a (s.modBooster n f) := by
  unfold State.modBooster
  split
  · next x hx => exact State.setBooster_plain h (by rw [hx]; exact congrArg some (e x).symm)
  · exact h

@[simp] theorem State.setSlot_plain (h : PlainStep a s) {t : Target} {sl : Slot} : PlainStep a (s.setSlot t sl) := by
  unfold State.setSlot
  split <;> split
  · next x hx => exact State.setValve_plain h (by simp [hx, valveCalm])
  · exact h
  · next x hx => exact State.setDistrict_plain h (by simp [hx, districtCalm])
  · exact h
  · next x hx => exact State.setBooster_plain h (by simp [hx, boosterView])
  · exact h

@[simp] theorem State.setValveState_plain (h : PlainStep a s) {v : Nat} {st : VState} : PlainStep a (s.setValveState v st) := by
  unfold State.setValveState
  split
  · next x hx => exact State.setValve_plain h (by simp [hx, valveCalm])
  · exact h

@[simp] theorem State.modFill_plain (h : PlainStep a s) {f : Fill → Fill} (e : KeepsFill f) : PlainStep a (s.modFill f) :=
  h.trans ⟨by simp only [State.calm, State.modFill, (e s.fill).1]; rfl, rfl,
    fun x => ⟨x.1, ⟨x.2.1.1, x.2.1.2.trans (e s.fill).2.symm⟩, x.2.2⟩, [], by simp⟩

theorem setFlag_low (fs : BitVec 8) (i : Nat) (b : Bool) (h : i = 6 ∨ i = 7) : setFlag fs i b &&& 0x3F#8 = fs &&& 0x3F#8 := by
  unfold setFlag
  revert fs
  rcases h with rfl | rfl <;> cases b <;> decide

theorem setFlag_get (fs : BitVec 8) (i j : Nat) (b : Bool) (h : (i = 6 ∧ j = 7) ∨ (i = 7 ∧ j = 6)) :
    (setFlag fs i b).getLsbD j = fs.getLsbD j := by
  unfold setFlag
  revert fs
  rcases h with ⟨rfl, rfl⟩ | ⟨rfl, rfl⟩ <;> cases b <;> decide

theorem setFlag_self (fs : BitVec 8) (i : Nat) (b : Bool) (h : i = 6 ∨ i = 7) : (setFlag fs i b).getLsbD i = b := by
  unfold setFlag
  revert fs
  rcases h with rfl | rfl <;> cases b <;> decide

@[simp] theorem State.setUnplaced_plain (h : PlainStep a s) {b : Bool} : PlainStep a (s.setUnplaced b) :=
  h.trans ⟨by
      have e := setFlag_low s.flags 7 b (.inr rfl)
      simp only [State.calm, State.setUnplaced, e]; rfl, rfl,
    fun x => ⟨x.1, ⟨(setFlag_get _ 7 6 _ (.inr ⟨rfl, rfl⟩)).trans x.2.1.1, setFlag_self _ 7 _ (.inr rfl)⟩, x.2.2⟩, [], by simp⟩

@[simp] theorem State.modDraw_plain (h : PlainStep a s) {f : Draw → Draw} (e : KeepsDraw f) : PlainStep a (s.modDraw f) :=
  h.trans ⟨by simp only [State.calm, State.modDraw, e s.draw]; rfl, rfl, id, [], by simp⟩

@[simp] theorem State.modPool_plain (h : PlainStep a s) {f : Pool → Pool} (e : KeepsPool f) : PlainStep a (s.modPool f) :=
  h.trans ⟨by simp only [State.calm, State.modPool, (e s.pool).1]; rfl, rfl,
    fun x => ⟨x.1, ⟨x.2.1.1.trans (by rw [show (s.modPool f).pool.level = (f s.pool).level from rfl, (e s.pool).2]), x.2.1.2⟩, x.2.2⟩, [], by simp⟩

@[simp] theorem State.setLine_plain (h : PlainStep a s) {l : FLine} {u : LineUnit} (e : lineCalm u = lineCalm (s.line l)) :
    PlainStep a (s.setLine l u) :=
  h.trans ⟨by
      have hl : (fun k => lineCalm ((s.setLine l u).line k)) = fun k => lineCalm (s.line k) := by
        funext k; rw [State.line_setLine]; split <;> simp_all
      simp only [State.calm, hl]; cases l <;> rfl, by cases l <;> rfl,
    fun x => by cases l <;> exact x, [], by cases l <;> simp [State.setLine]⟩

theorem takeTurn_calm (u : LineUnit) (o : TurnOwner) (n : Nat) : lineCalm (takeTurn u o n) = lineCalm u := by
  unfold takeTurn; repeat' split
  all_goals rfl

theorem selectNext_calm (u : LineUnit) : lineCalm (selectNext u) = lineCalm u := by
  unfold selectNext; repeat' split
  all_goals first | rfl | exact takeTurn_calm _ _ _

theorem wakeUnit_calm (u : LineUnit) : lineCalm (wakeUnit u) = lineCalm u := by
  unfold wakeUnit; split
  · exact selectNext_calm u
  · rfl

@[simp] theorem State.place_plain (h : PlainStep a s) {l : FLine} {f : LineUnit → LineUnit} (e : KeepsLine f) :
    PlainStep a (s.place l f) := State.setLine_plain h ((wakeUnit_calm _).trans (e _))

/-- On a line that is not IDLE, what is placed waits: nothing is selected. -/
theorem State.place_busy {s : State} {l : FLine} {f : LineUnit → LineUnit} (h : (f (s.line l)).mode ≠ .idle) :
    s.place l f = s.setLine l (f (s.line l)) := by
  have e : s.place l f = s.setLine l (wakeUnit (f (s.line l))) := rfl
  rw [e, wakeUnit]
  simp [h]

@[simp] theorem withdraw_keeps (t : Target) : KeepsLine (withdraw t) := fun _ => rfl
@[simp] theorem placeQ0_keeps (e : Q0Entry) : KeepsLine (placeQ0 e) := fun _ => rfl
@[simp] theorem placeQ0Head_keeps (e : Q0Entry) : KeepsLine (placeQ0Head e) := fun _ => rfl

@[simp] theorem State.withdrawOrder_plain (h : PlainStep a s) {t : Target} : PlainStep a (s.withdrawOrder t) := by
  unfold State.withdrawOrder
  simp only [allLines, List.foldl]
  exact State.place_plain (State.place_plain (State.place_plain h (withdraw_keeps t)) (withdraw_keeps t)) (withdraw_keeps t)

/-- A fold of plain work is plain work. -/
theorem PlainStep.foldl {α : Type} {f : State → α → State} (hf : ∀ {b : State} {x : α}, PlainStep a b → PlainStep a (f b x))
    (l : List α) (h : PlainStep a s) : PlainStep a (l.foldl f s) := by
  induction l generalizing s with
  | nil => exact h
  | cons x r ih => exact ih (hf h)

@[simp] theorem State.answerEach_plain (h : PlainStep a s) {r : Result} {gs : List DeskRef} {owed : Bool} :
    PlainStep a (s.answerEach r gs owed) := PlainStep.foldl (fun k => State.answerOrder_plain k) gs h

/-- A change of every holder that keeps what is calm of each. -/
theorem State.mapHolders_plain (h : PlainStep a s) {f : Holder → Holder} (e : ∀ x, holderCalm (f x) = holderCalm x) :
    PlainStep a { s with holders := s.holders.map fun p => (p.1, f p.2) } := by
  have k : (fun n => (tblGet (s.holders.map fun p => (p.1, f p.2)) n).map holderCalm) = fun n => (s.holder n).map holderCalm := by
    funext n
    rw [tblGet_map s.holders (fun p : Nat × Holder => f p.2) n, Option.map_map]
    exact congrArg (fun g => (s.holder n).map g) (funext e)
  refine h.trans ⟨?_, rfl, fun x => ⟨x.1, x.2.1, (tblWf_map s.holders fun p => f p.2).trans x.2.2.1, x.2.2.2⟩, [], by simp⟩
  simp only [State.calm, State.holder, k]
  rfl

end Sys2Proof.Machine
end

