-- ==== Sys2Proof/Laws/Units.lean ====
section
/-! SUPPORT. Every unit's own work on a plain hand-off is plain work: one lemma for each operation of the units. -/

set_option linter.unusedSimpArgs false
set_option Elab.async false

namespace Sys2Proof.Machine
variable {a s : State}
@[simp] theorem slotOutcome_plain (t : Target) (sl : Slot) (o : SlotOutcome) : plain (slotOutcome t sl o) = true := rfl
@[simp] theorem followUpOutcome_made (t : Target) (sl : Slot) : Plain (followUpOutcome t sl) := by
  unfold followUpOutcome; split <;> simp [plain]
@[simp] theorem testsAgain_made (o : SlotOutcome) : Plain (testsAgain o) := by
  unfold testsAgain; split <;> simp [plain]
@[simp] theorem State.valveTold_plain (v : Nat) (b : Option VState) : plain (s.valveTold v false b) = true := rfl

@[simp] theorem State.answerParked_plain (h : PlainStep a s) {n : Nat} {r : Result} {owed : Bool} :
    PlainStep a (s.answerParked n r owed) := by
  unfold State.answerParked
  try dsimp only
  repeat' split
  all_goals simp (maxDischargeDepth := 40) [plain, slotOutcome, State.valveTold, *]

@[simp] theorem State.supersedeParked_plain (h : PlainStep a s) {v : Nat} {owed : Bool} : PlainStep a (s.supersedeParked v owed) := by
  unfold State.supersedeParked
  refine State.answerEach_plain ?_
  exact State.mapHolders_plain h fun x => by unfold unparked; split <;> rfl

@[simp] theorem State.takeFree_plain (h : PlainStep a s) {t : Target} {c : OrderCode} {g : Nat} {o : Origin} {tag : Option DeskRef} : PlainStep a (s.takeFree t c g o tag).1 := by
  unfold State.takeFree
  try dsimp only
  repeat' split
  all_goals simp (maxDischargeDepth := 40) [plain, slotOutcome, State.valveTold, *]

@[simp] theorem State.takeFree_made (t : Target) (c : OrderCode) (g : Nat) (o : Origin) (tag : Option DeskRef) : Plain (s.takeFree t c g o tag).2 := by
  unfold State.takeFree
  try dsimp only
  repeat' split
  all_goals simp (maxDischargeDepth := 40) [plain, slotOutcome, State.valveTold, *]

@[simp] theorem State.freeSlot_plain (h : PlainStep a s) {t : Target} {sl : Slot} : PlainStep a (s.freeSlot t sl).1 := by
  unfold State.freeSlot
  try dsimp only
  repeat' split
  all_goals simp (maxDischargeDepth := 40) [plain, slotOutcome, State.valveTold, *]

@[simp] theorem State.freeSlot_made (t : Target) (sl : Slot) : Plain (s.freeSlot t sl).2 := by
  unfold State.freeSlot
  try dsimp only
  repeat' split
  all_goals simp (maxDischargeDepth := 40) [plain, slotOutcome, State.valveTold, *]

@[simp] theorem State.markShutting_plain (h : PlainStep a s) {t : Target} : PlainStep a (s.markShutting t).1 := by
  unfold State.markShutting
  try dsimp only
  repeat' split
  all_goals simp (maxDischargeDepth := 40) [plain, slotOutcome, State.valveTold, *]

@[simp] theorem State.markShutting_made (t : Target) : Plain (s.markShutting t).2 := by
  unfold State.markShutting
  try dsimp only
  repeat' split
  all_goals simp (maxDischargeDepth := 40) [plain, slotOutcome, State.valveTold, *]

@[simp] theorem State.reverse_plain (h : PlainStep a s) {t : Target} {sl : Slot} {c : OrderCode} {o : Origin} {tag : Option DeskRef} : PlainStep a (s.reverse t sl c o tag) := by
  unfold State.reverse
  try dsimp only
  repeat' split
  all_goals simp (maxDischargeDepth := 40) [plain, slotOutcome, State.valveTold, *]

@[simp] theorem State.claimShut_plain (h : PlainStep a s) {t : Target} {sl : Slot} {c : OrderCode} {o : Origin} {tag : Option DeskRef} : PlainStep a (s.claimShut t sl c o tag) := by
  unfold State.claimShut
  try dsimp only
  repeat' split
  all_goals simp (maxDischargeDepth := 40) [plain, slotOutcome, State.valveTold, *]

@[simp] theorem State.claimSlot_plain (h : PlainStep a s) {t : Target} {c : OrderCode} {g : Nat} {o : Origin} {tag : Option DeskRef}
    {owed : Bool} : PlainStep a (s.claimSlot t c g o tag owed) := by
  unfold State.claimSlot
  try dsimp only
  repeat' split
  all_goals simp (maxDischargeDepth := 40) [plain, slotOutcome, State.valveTold, *]

@[simp] theorem State.claim_plain (h : PlainStep a s) {t : Target} {c : OrderCode} {g : Nat} {o : Origin} {tag : Option DeskRef}
    {owed : Bool} : PlainStep a (s.claim t c g o tag owed) := by
  unfold State.claim
  try dsimp only
  repeat' split
  all_goals simp (maxDischargeDepth := 40) [plain, slotOutcome, State.valveTold, *]

@[simp] theorem State.governorOrderEnded_plain (h : PlainStep a s) {d : Nat} {sl : Slot} {e : OrderEnd} : PlainStep a (s.governorOrderEnded d sl e) := by
  unfold State.governorOrderEnded
  try dsimp only
  repeat' split
  all_goals simp (maxDischargeDepth := 40) [plain, slotOutcome, State.valveTold, *]

@[simp] theorem State.endBoosterOrder_plain (h : PlainStep a s) {b : Nat} {sl : Slot} {o : SlotOutcome} : PlainStep a (s.endBoosterOrder b sl o) := by
  unfold State.endBoosterOrder
  try dsimp only
  all_goals simp (maxDischargeDepth := 40) [plain, slotOutcome, State.valveTold, *]

@[simp] theorem State.failBoosterOrder_plain (h : PlainStep a s) {b : Nat} {sl : Slot} {o : SlotOutcome} : PlainStep a (s.failBoosterOrder b sl o) := by
  unfold State.failBoosterOrder
  try dsimp only
  all_goals simp (maxDischargeDepth := 40) [plain, slotOutcome, State.valveTold, *]

@[simp] theorem State.topGuard_plain (h : PlainStep a s) {n : Nat} : PlainStep a (s.topGuard n) := by
  unfold State.topGuard
  try dsimp only
  repeat' split
  all_goals simp (maxDischargeDepth := 40) [plain, slotOutcome, State.valveTold, *]

@[simp] theorem State.refuseOrder_plain (h : PlainStep a s) {tag : DeskRef} {r : Reason} {owed : Bool} :
    PlainStep a (s.refuseOrder tag r owed) := by
  unfold State.refuseOrder
  try dsimp only
  all_goals simp (maxDischargeDepth := 40) [plain, slotOutcome, State.valveTold, *]

@[simp] theorem State.regate_plain (h : PlainStep a s) {n : Nat} {owed : Bool} : PlainStep a (s.regate n owed) := by
  unfold State.regate
  try dsimp only
  repeat' split
  all_goals simp (maxDischargeDepth := 40) [plain, slotOutcome, State.valveTold, *]

@[simp] theorem State.claimSafety_plain (h : PlainStep a s) {n : Nat} {x : Holder} {v : Nat} {o : Origin} : PlainStep a (s.claimSafety n x v o) := by
  unfold State.claimSafety
  try dsimp only
  repeat' split
  all_goals simp (maxDischargeDepth := 40) [plain, slotOutcome, State.valveTold, *]

@[simp] theorem State.entryShuts_plain (h : PlainStep a s) {n : Nat} {x : Holder} {st : HState} : PlainStep a (s.entryShuts n x st) := by
  unfold State.entryShuts
  try dsimp only
  repeat' split
  all_goals simp (maxDischargeDepth := 40) [plain, slotOutcome, State.valveTold, *]

@[simp] theorem State.safetyExamineOne_plain (h : PlainStep a s) {n : Nat} : PlainStep a (s.safetyExamineOne n) := by
  unfold State.safetyExamineOne
  try dsimp only
  repeat' split
  all_goals simp (maxDischargeDepth := 40) [plain, slotOutcome, State.valveTold, *]

@[simp] theorem State.safetyExamine_plain (h : PlainStep a s)  : PlainStep a (s.safetyExamine) := by
  unfold State.safetyExamine
  try dsimp only
  repeat' split
  all_goals simp (maxDischargeDepth := 40) [plain, slotOutcome, State.valveTold, *]

@[simp] theorem State.makeUnplaced_plain (h : PlainStep a s)  : PlainStep a (s.makeUnplaced) := by
  unfold State.makeUnplaced
  try dsimp only
  repeat' split
  all_goals simp (maxDischargeDepth := 40) [plain, slotOutcome, State.valveTold, *]

@[simp] theorem State.beginFill_plain (h : PlainStep a s) {n : Nat} : PlainStep a (s.beginFill n) := by
  unfold State.beginFill
  try dsimp only
  repeat' split
  all_goals simp (maxDischargeDepth := 40) [plain, slotOutcome, State.valveTold, *]

@[simp] theorem State.fillSelect_plain (h : PlainStep a s)  : PlainStep a (s.fillSelect) := by
  unfold State.fillSelect
  try dsimp only
  repeat' split
  all_goals simp (maxDischargeDepth := 40) [plain, slotOutcome, State.valveTold, *]

@[simp] theorem State.unplacedRetry_made  : Plain (s.unplacedRetry) := by
  unfold State.unplacedRetry
  try dsimp only
  repeat' split
  all_goals simp (maxDischargeDepth := 40) [plain, slotOutcome, State.valveTold, *]

@[simp] theorem State.endFill_plain (h : PlainStep a s)  : PlainStep a (s.endFill) := by
  unfold State.endFill
  try dsimp only
  repeat' split
  all_goals simp (maxDischargeDepth := 40) [plain, slotOutcome, State.valveTold, *]

@[simp] theorem State.claimOldShut_made (n : Nat) : Plain (s.claimOldShut n) := by
  unfold State.claimOldShut
  try dsimp only
  repeat' split
  all_goals simp (maxDischargeDepth := 40) [plain, slotOutcome, State.valveTold, *]

@[simp] theorem State.fillNewOpen_plain (h : PlainStep a s) {c : FillChange} : PlainStep a (s.fillNewOpen c) := by
  unfold State.fillNewOpen
  try dsimp only
  repeat' split
  all_goals simp (maxDischargeDepth := 40) [plain, slotOutcome, State.valveTold, *]

@[simp] theorem State.fillTest_plain (h : PlainStep a s)  : PlainStep a (s.fillTest) := by
  unfold State.fillTest
  try dsimp only
  repeat' split
  all_goals simp (maxDischargeDepth := 40) [plain, slotOutcome, State.valveTold, *]

@[simp] theorem State.abandonFill_plain (h : PlainStep a s) {c : FillChange} : PlainStep a (s.abandonFill c) := by
  unfold State.abandonFill
  try dsimp only
  repeat' split
  all_goals simp (maxDischargeDepth := 40) [plain, slotOutcome, State.valveTold, *]

@[simp] theorem State.newHolderCheck_plain (h : PlainStep a s) {n : Nat} : PlainStep a (s.newHolderCheck n) := by
  unfold State.newHolderCheck
  try dsimp only
  repeat' split
  all_goals simp (maxDischargeDepth := 40) [plain, slotOutcome, State.valveTold, *]

@[simp] theorem State.fillUnable_plain (h : PlainStep a s) {n : Nat} {own : Bool} : PlainStep a (s.fillUnable n own) := by
  unfold State.fillUnable
  try dsimp only
  repeat' split
  all_goals simp (maxDischargeDepth := 40) [plain, slotOutcome, State.valveTold, *]

@[simp] theorem State.fillFailed_plain (h : PlainStep a s) {c : FillChange} : PlainStep a (s.fillFailed c) := by
  unfold State.fillFailed
  try dsimp only
  repeat' split
  all_goals simp (maxDischargeDepth := 40) [plain, slotOutcome, State.valveTold, *]

@[simp] theorem State.fillOutcome_plain (h : PlainStep a s) {v : Nat} {c : OrderCode} {o : SlotOutcome} : PlainStep a (s.fillOutcome v c o) := by
  unfold State.fillOutcome
  try dsimp only
  repeat' split
  all_goals simp (maxDischargeDepth := 40) [plain, slotOutcome, State.valveTold, *]

@[simp] theorem State.fillTold_plain (h : PlainStep a s) {n : Nat} : PlainStep a (s.fillTold n) := by
  unfold State.fillTold
  try dsimp only
  repeat' split
  all_goals simp (maxDischargeDepth := 40) [plain, slotOutcome, State.valveTold, *]

@[simp] theorem State.fillBarTold_plain (h : PlainStep a s) {n : Nat} {b : Bool} : PlainStep a (s.fillBarTold n b) := by
  unfold State.fillBarTold
  try dsimp only
  repeat' split
  all_goals simp (maxDischargeDepth := 40) [plain, slotOutcome, State.valveTold, *]

@[simp] theorem State.fillInlet_plain (h : PlainStep a s) {n : Nat} : PlainStep a (s.fillInlet n) := by
  unfold State.fillInlet
  try dsimp only
  repeat' split
  all_goals simp (maxDischargeDepth := 40) [plain, slotOutcome, State.valveTold, *]

@[simp] theorem State.fillValve_plain (h : PlainStep a s) {v : Nat} : PlainStep a (s.fillValve v) := by
  unfold State.fillValve
  try dsimp only
  repeat' split
  all_goals simp (maxDischargeDepth := 40) [plain, slotOutcome, State.valveTold, *]

@[simp] theorem State.fillStray_plain (h : PlainStep a s) {n : Nat} : PlainStep a (s.fillStray n) := by
  unfold State.fillStray
  try dsimp only
  repeat' split
  all_goals simp (maxDischargeDepth := 40) [plain, slotOutcome, State.valveTold, *]

@[simp] theorem State.fillStrays_plain (h : PlainStep a s)  : PlainStep a (s.fillStrays) := by
  unfold State.fillStrays
  try dsimp only
  repeat' split
  all_goals simp (maxDischargeDepth := 40) [plain, slotOutcome, State.valveTold, *]

@[simp] theorem State.reissueOld_made  : Plain (s.reissueOld) := by
  unfold State.reissueOld
  try dsimp only
  repeat' split
  all_goals simp (maxDischargeDepth := 40) [plain, slotOutcome, State.valveTold, *]

@[simp] theorem State.fillCycle_plain (h : PlainStep a s)  : PlainStep a (s.fillCycle) := by
  unfold State.fillCycle
  try dsimp only
  all_goals simp (maxDischargeDepth := 40) [plain, slotOutcome, State.valveTold, *]

@[simp] theorem State.fillRun_plain (h : PlainStep a s)  : PlainStep a (s.fillRun) := by
  unfold State.fillRun
  try dsimp only
  repeat' split
  all_goals simp (maxDischargeDepth := 40) [plain, slotOutcome, State.valveTold, *]

@[simp] theorem State.drawEvaluate_plain (h : PlainStep a s)  : PlainStep a (s.drawEvaluate) := by
  unfold State.drawEvaluate
  try dsimp only
  repeat' split
  all_goals simp (maxDischargeDepth := 40) [plain, slotOutcome, State.valveTold, *]

@[simp] theorem State.drawCall_plain (h : PlainStep a s)  : PlainStep a (s.drawCall) := by
  unfold State.drawCall
  try dsimp only
  repeat' split
  all_goals simp (maxDischargeDepth := 40) [plain, slotOutcome, State.valveTold, *]

@[simp] theorem State.endDraw_plain (h : PlainStep a s) {c : DrawChange} : PlainStep a (s.endDraw c) := by
  unfold State.endDraw
  try dsimp only
  repeat' split
  all_goals simp (maxDischargeDepth := 40) [plain, slotOutcome, State.valveTold, *]

@[simp] theorem State.drawClose_plain (h : PlainStep a s) {c : DrawChange} : PlainStep a (s.drawClose c) := by
  unfold State.drawClose
  try dsimp only
  repeat' split
  all_goals simp (maxDischargeDepth := 40) [plain, slotOutcome, State.valveTold, *]

@[simp] theorem State.drawOpen_plain (h : PlainStep a s) {n : Nat} : PlainStep a (s.drawOpen n) := by
  unfold State.drawOpen
  repeat' split
  all_goals simp [plain, *]

@[simp] theorem State.drawShut_plain (h : PlainStep a s) {n : Nat} : PlainStep a (s.drawShut n) := by
  unfold State.drawShut
  split
  · exact h
  · split
    · refine State.hand_plain (State.modDraw_plain h ?_) ?_
      · exact fun _ => rfl
      repeat' split
      all_goals simp [plain]
    · exact h

@[simp] theorem State.drawStep_plain (h : PlainStep a s)  : PlainStep a (s.drawStep) := by
  unfold State.drawStep
  split
  · exact h
  · split
    · split
      · exact State.endDraw_plain h
      · exact h
    · dsimp only
      split
      · refine State.hand_plain (State.modDraw_plain h ?_) ?_
        · exact fun _ => rfl
        refine (plain_append _ _).2 ⟨by simp [plain], ?_⟩
        split <;> rfl
      · refine State.modDraw_plain h ?_
        exact fun _ => rfl

@[simp] theorem State.drawFinish_plain (h : PlainStep a s)  : PlainStep a (s.drawFinish) := by
  unfold State.drawFinish
  try dsimp only
  repeat' split
  all_goals simp (maxDischargeDepth := 40) [plain, slotOutcome, State.valveTold, *]

@[simp] theorem State.drawOutcome_plain (h : PlainStep a s) {v : Nat} {c : OrderCode} {g : Origin} {o : SlotOutcome} : PlainStep a (s.drawOutcome v c g o) := by
  unfold State.drawOutcome
  try dsimp only
  repeat' split
  all_goals simp (maxDischargeDepth := 40) [plain, slotOutcome, State.valveTold, *]

@[simp] theorem State.drawTold_plain (h : PlainStep a s)  : PlainStep a (s.drawTold) := by
  unfold State.drawTold
  try dsimp only
  all_goals simp (maxDischargeDepth := 40) [plain, slotOutcome, State.valveTold, *]

@[simp] theorem State.drawOutlet_plain (h : PlainStep a s) {v : Nat} : PlainStep a (s.drawOutlet v) := by
  unfold State.drawOutlet
  try dsimp only
  repeat' split
  all_goals simp (maxDischargeDepth := 40) [plain, slotOutcome, State.valveTold, *]

theorem shutClaims_made (l : List Nat) (p : Nat → Bool) :
    Plain (l.filterMap fun h => if p h then none else (s.outletOf h).map fun v => .claim (.valve v) .shut 0 .draw none) := by
  rw [plain_filterMap]
  intro x _ y e
  split at e
  · cases e
  · obtain ⟨v, -, rfl⟩ := Option.map_eq_some_iff.1 e
    rfl

@[simp] theorem State.drawCycle_plain (h : PlainStep a s)  : PlainStep a (s.drawCycle) := by
  unfold State.drawCycle
  refine State.hand_plain h ((plain_append _ _).2 ⟨?_, ?_⟩)
  · split
    · split
      · exact shutClaims_made _ _
      · simp
    · simp
  · simp [plain]

@[simp] theorem State.drawRun_made  : Plain (s.drawRun) := by
  unfold State.drawRun
  refine (plain_append _ _).2 ⟨?_, by simp [plain]⟩
  split
  · refine (plain_append _ _).2 ⟨?_, by simp [plain]⟩
    split
    · exact shutClaims_made _ _
    · simp
  · simp

@[simp] theorem State.noDrawCheck_plain (h : PlainStep a s)  : PlainStep a (s.noDrawCheck) := by
  unfold State.noDrawCheck
  try dsimp only
  repeat' split
  all_goals simp (maxDischargeDepth := 40) [plain, slotOutcome, State.valveTold, *]

@[simp] theorem State.mainPressure_plain (h : PlainStep a s)  : PlainStep a (s.mainPressure) := by
  unfold State.mainPressure
  try dsimp only
  repeat' split
  all_goals simp (maxDischargeDepth := 40) [plain, slotOutcome, State.valveTold, *]

@[simp] theorem State.markRecorderLost_plain (h : PlainStep a s) {d : Nat} : PlainStep a (s.markRecorderLost d) := by
  unfold State.markRecorderLost
  split
  · exact h
  · exact h.trans ⟨rfl, rfl, id, [], by simp⟩

@[simp] theorem State.retarget_plain (h : PlainStep a s) {d : Nat} : PlainStep a (s.retarget d) := by
  unfold State.retarget
  try dsimp only
  repeat' split
  all_goals simp (maxDischargeDepth := 40) [plain, slotOutcome, State.valveTold, *]

@[simp] theorem State.retargetAll_plain (h : PlainStep a s)  : PlainStep a (s.retargetAll) := by
  unfold State.retargetAll
  try dsimp only
  all_goals simp (maxDischargeDepth := 40) [plain, slotOutcome, State.valveTold, *]

@[simp] theorem State.districtEnter_plain (h : PlainStep a s) {d : Nat} {st : DState} : PlainStep a (s.districtEnter d st) := by
  unfold State.districtEnter
  try dsimp only
  repeat' split
  all_goals simp (maxDischargeDepth := 40) [plain, slotOutcome, State.valveTold, *]

@[simp] theorem State.districtAfresh_plain (h : PlainStep a s) {d : Nat} : PlainStep a (s.districtAfresh d) := by
  unfold State.districtAfresh
  split
  · exact h
  · exact State.districtEnter_plain h

@[simp] theorem State.districtDerive_plain (h : PlainStep a s) {d : Nat} : PlainStep a (s.districtDerive d) := by
  unfold State.districtDerive
  split
  · exact h
  · split
    · exact h
    · exact State.districtEnter_plain h

@[simp] theorem State.headShortChange_plain (h : PlainStep a s) {d : Nat} {x : District} {t : Nat} {g : Int} {b : Bool} : PlainStep a (s.headShortChange d x t g b) := by
  unfold State.headShortChange
  try dsimp only
  repeat' split
  all_goals simp (maxDischargeDepth := 40) [plain, slotOutcome, State.valveTold, *]

@[simp] theorem State.headEval_plain (h : PlainStep a s) {d : Nat} : PlainStep a (s.headEval d) := by
  unfold State.headEval
  try dsimp only
  repeat' split
  all_goals simp (maxDischargeDepth := 40) [plain, slotOutcome, State.valveTold, *]

@[simp] theorem State.headAll_plain (h : PlainStep a s)  : PlainStep a (s.headAll) := by
  unfold State.headAll
  try dsimp only
  all_goals simp (maxDischargeDepth := 40) [plain, slotOutcome, State.valveTold, *]

@[simp] theorem State.tellBoost_plain (h : PlainStep a s) {d n : Nat} {b : Bool} {l : Nat} : PlainStep a (s.tellBoost d n b l) := by
  unfold State.tellBoost
  try dsimp only
  all_goals simp (maxDischargeDepth := 40) [plain, slotOutcome, State.valveTold, *]

@[simp] theorem State.atLimit_plain (h : PlainStep a s) {d : Nat} {x : District} {l : Limit} (e : DistrictLike (s.district d) x) : PlainStep a (s.atLimit d x l) := by
  unfold State.atLimit
  split
  · exact h
  · refine State.notify_plain (State.setDistrict_plain h ?_)
    exact e

@[simp] theorem State.governorLoop_plain (h : PlainStep a s) {d p : Nat} : PlainStep a (s.governorLoop d p) := by
  unfold State.governorLoop
  split
  · exact h
  · next x hx =>
    have hl : DistrictLike (s.district d) x := by simp [hx]
    repeat' split
    all_goals simp (maxDischargeDepth := 40) [plain, State.atLimit_plain, *]

@[simp] theorem State.governorOutcome_plain (h : PlainStep a s) {d : Nat} {o : SlotOutcome} : PlainStep a (s.governorOutcome d o) := by
  unfold State.governorOutcome
  try dsimp only
  repeat' split
  all_goals simp (maxDischargeDepth := 40) [plain, slotOutcome, State.valveTold, *]

@[simp] theorem State.joinQueue_plain (h : PlainStep a s) {d : Nat} : PlainStep a (s.joinQueue d) := by
  unfold State.joinQueue
  try dsimp only
  repeat' split
  all_goals simp (maxDischargeDepth := 40) [plain, slotOutcome, State.valveTold, *]

@[simp] theorem State.leaveQueue_plain (h : PlainStep a s) {d : Nat} : PlainStep a (s.leaveQueue d) := by
  unfold State.leaveQueue
  try dsimp only
  all_goals simp (maxDischargeDepth := 40) [plain, slotOutcome, State.valveTold, *]

@[simp] theorem State.queueSweep_plain (h : PlainStep a s)  : PlainStep a (s.queueSweep) := by
  unfold State.queueSweep
  try dsimp only
  repeat' split
  all_goals simp (maxDischargeDepth := 40) [plain, slotOutcome, State.valveTold, *]

@[simp] theorem State.boostCheck_plain (h : PlainStep a s) {d : Nat} : PlainStep a (s.boostCheck d) := by
  unfold State.boostCheck
  try dsimp only
  repeat' split
  all_goals simp (maxDischargeDepth := 40) [plain, slotOutcome, State.valveTold, *]

theorem BoosterLike.of {o : Option Booster} {x y : Booster} (h : o = some x) (e : boosterView x = boosterView y) :
    BoosterLike o y := by subst h; exact congrArg some e

@[simp] theorem State.grant_plain (h : PlainStep a s)  : PlainStep a (s.grant) := by
  unfold State.grant
  split
  · split
    · next d rest b x _ hf =>
      have hb : s.booster b = some x := by
        simp only [State.freeBooster?, List.findSome?_map, List.findSome?_eq_some_iff] at hf
        obtain ⟨_, p, _, _, hp, _⟩ := hf
        simp only [Function.comp] at hp
        split at hp
        · split at hp
          · next y hy _ => cases hp; exact hy
          · cases hp
        · cases hp
      refine State.hand_plain (State.modDistrict_plain (State.notify_plain (State.setBooster_plain (State.modPool_plain h ?_) ?_)) ?_) rfl
      · exact fun _ => ⟨rfl, rfl⟩
      · exact .of hb rfl
      · exact fun _ => rfl
    · exact h
  · exact h

@[simp] theorem State.boosterRuns_plain (h : PlainStep a s) {b : Nat} : PlainStep a (s.boosterRuns b) := by
  unfold State.boosterRuns
  try dsimp only
  repeat' split
  all_goals simp (maxDischargeDepth := 40) [plain, slotOutcome, State.valveTold, *]

@[simp] theorem State.releaseDistrict_plain (h : PlainStep a s) {d : Nat} : PlainStep a (s.releaseDistrict d) := by
  unfold State.releaseDistrict
  try dsimp only
  repeat' split
  all_goals simp (maxDischargeDepth := 40) [plain, slotOutcome, State.valveTold, *]

@[simp] theorem State.releaseHeld_plain (h : PlainStep a s) {d : Option Nat} : PlainStep a (s.releaseHeld d) := by
  unfold State.releaseHeld
  try dsimp only
  repeat' split
  all_goals simp (maxDischargeDepth := 40) [plain, slotOutcome, State.valveTold, *]

@[simp] theorem State.boosterFails_plain (h : PlainStep a s) {b : Nat} {c : FailCause} : PlainStep a (s.boosterFails b c) := by
  unfold State.boosterFails
  try dsimp only
  repeat' split
  all_goals simp (maxDischargeDepth := 40) [plain, slotOutcome, State.valveTold, *]

@[simp] theorem State.boosterFreed_plain (h : PlainStep a s) {b : Nat} : PlainStep a (s.boosterFreed b) := by
  unfold State.boosterFreed
  try dsimp only
  repeat' split
  all_goals simp (maxDischargeDepth := 40) [plain, slotOutcome, State.valveTold, *]

@[simp] theorem State.boosterStopping_plain (h : PlainStep a s) {b : Nat} {x : Booster} (e : BoosterLike (s.booster b) x) : PlainStep a (s.boosterStopping b x) := by
  unfold State.boosterStopping
  refine State.releaseHeld_plain (State.setBooster_plain h ?_)
  exact e

@[simp] theorem State.boosterStop_plain (h : PlainStep a s) {b : Nat} {c : StopCause} : PlainStep a (s.boosterStop b c) := by
  unfold State.boosterStop
  split
  · exact h
  · next x hx =>
    dsimp only
    repeat' split
    · exact h
    · refine State.boosterStopping_plain (State.hand_plain (State.notify_plain h) ?_) ?_
      · rfl
      · exact .of hx rfl
    · exact State.setBooster_plain h (.of hx rfl)

@[simp] theorem State.districtWentOut_plain (h : PlainStep a s) {d : Nat} : PlainStep a (s.districtWentOut d) := by
  unfold State.districtWentOut
  try dsimp only
  repeat' split
  all_goals simp (maxDischargeDepth := 40) [plain, slotOutcome, State.valveTold, *]

@[simp] theorem State.boosterOutcome_plain (h : PlainStep a s) {b : Nat} {c : OrderCode} {o : SlotOutcome} : PlainStep a (s.boosterOutcome b c o) := by
  unfold State.boosterOutcome
  try dsimp only
  repeat' split
  all_goals simp (maxDischargeDepth := 40) [plain, slotOutcome, State.valveTold, *]

@[simp] theorem State.reclaimStop_made (b : Nat) : Plain (s.reclaimStop b) := by
  unfold State.reclaimStop
  try dsimp only
  repeat' split
  all_goals simp (maxDischargeDepth := 40) [plain, slotOutcome, State.valveTold, *]

@[simp] theorem State.releaseCheck_plain (h : PlainStep a s) {d : Nat} : PlainStep a (s.releaseCheck d) := by
  unfold State.releaseCheck
  split
  · exact h
  · refine State.modBooster_plain h fun x => ?_
    repeat' split
    all_goals rfl

@[simp] theorem State.stopsDue_plain (h : PlainStep a s)  : PlainStep a (s.stopsDue) := by
  unfold State.stopsDue State.eachBooster
  exact State.hand_plain h ((plain_flatMap _ _).2 fun _ _ => rfl)

@[simp] theorem State.boosterDue_plain (h : PlainStep a s) {b : Nat} : PlainStep a (s.boosterDue b) := by
  unfold State.boosterDue
  try dsimp only
  repeat' split
  all_goals simp (maxDischargeDepth := 40) [plain, slotOutcome, State.valveTold, *]

theorem levelFlags_plain (h : PlainStep a s) {l : Nat} {r : Option Nat} :
    PlainStep a { s with pool := { s.pool with level := l, recoveryDue := r }, flags := setFlag s.flags 6 (decide (1 ≤ l)) } := by
  refine h.trans ⟨?_, rfl, fun x => ⟨x.1, ⟨?_, ?_⟩, x.2.2⟩, [], (List.append_nil _).symm, rfl⟩
  · have e := setFlag_low s.flags 6 (decide (1 ≤ l)) (.inl rfl)
    simp only [State.calm, e]
    rfl
  · exact setFlag_self _ 6 _ (.inl rfl)
  · exact (setFlag_get _ 6 7 _ (.inl ⟨rfl, rfl⟩)).trans x.2.1.2

@[simp] theorem State.setLevel_plain (h : PlainStep a s) {l : Nat} : PlainStep a (s.setLevel l) := by
  exact State.hand_plain (State.notify_plain (levelFlags_plain h)) rfl

@[simp] theorem State.levelEval_plain (h : PlainStep a s)  : PlainStep a (s.levelEval) := by
  unfold State.levelEval
  try dsimp only
  repeat' split
  all_goals simp (maxDischargeDepth := 40) [plain, slotOutcome, State.valveTold, *]

@[simp] theorem State.usableNow_plain (h : PlainStep a s)  : PlainStep a (s.usableNow) := by
  unfold State.usableNow
  simp (maxDischargeDepth := 40) [plain, slotOutcome, State.valveTold, *]

@[simp] theorem State.shedEval_plain (h : PlainStep a s) {d : Nat} : PlainStep a (s.shedEval d) := by
  unfold State.shedEval
  try dsimp only
  repeat' split
  all_goals simp (maxDischargeDepth := 40) [plain, slotOutcome, State.valveTold, *]

@[simp] theorem State.shedAll_plain (h : PlainStep a s)  : PlainStep a (s.shedAll) := by
  unfold State.shedAll
  try dsimp only
  all_goals simp (maxDischargeDepth := 40) [plain, slotOutcome, State.valveTold, *]

@[simp] theorem State.markHolderBlind_plain (h : PlainStep a s) {n : Nat} : PlainStep a (s.markHolderBlind n) := by
  unfold State.markHolderBlind
  repeat' split
  · exact h.trans ⟨rfl, rfl, id, [], by simp [State.modAcct]⟩
  · exact h
  · exact h

@[simp] theorem State.holderActs_plain (h : PlainStep a s) {n : Nat} {b : Bool} : PlainStep a (s.holderActs n b) := by
  unfold State.holderActs
  try dsimp only
  repeat' split
  all_goals simp (maxDischargeDepth := 40) [plain, slotOutcome, State.valveTold, *]

@[simp] theorem State.outcomeActs_plain (h : PlainStep a s) {t : Target} {c : OrderCode} {g : Origin} {tag : Option DeskRef} {o : SlotOutcome}
    {owed : Bool} : PlainStep a (s.outcomeActs t c g tag o owed) := by
  unfold State.outcomeActs
  try dsimp only
  repeat' split
  all_goals simp (maxDischargeDepth := 40) [plain, slotOutcome, State.valveTold, *]

end Sys2Proof.Machine
end

