-- ==== Sys2Proof/Laws/Settle.lean ====
section
/-! SUPPORT. Hand-offs acted on: plain ones are plain work, and every one leaves what `State.kept` holds. -/

set_option Elab.async false

namespace Sys2Proof.Machine
variable {a s : State}

theorem ValveLike.of {o : Option Valve} {x y : Valve} (h : o = some x) (e : valveCalm x = valveCalm y) : ValveLike o y := by
  subst h; exact congrArg some e
theorem HolderLike.of {o : Option Holder} {x y : Holder} (h : o = some x) (e : holderCalm x = holderCalm y) : HolderLike o y := by
  subst h; exact congrArg some e

/-- An order that ends with no report and no fault cause found. -/
theorem State.endValveOrder_plain (h : PlainStep a s) {v : Nat} {sl : Slot} {st : Option VState} {o : SlotOutcome} :
    PlainStep a (s.endValveOrder v sl st o false) := by
  unfold State.endValveOrder
  dsimp only
  split <;> (repeat' split) <;> simp (maxDischargeDepth := 40) [plain, slotOutcome, State.valveTold, *]

theorem State.startTravel_plain (h : PlainStep a s) {v : Nat} {sl : Slot} {st : VState} : PlainStep a (s.startTravel v sl st) := by
  unfold State.startTravel
  split
  · exact h
  · next x hx =>
    refine State.hand_plain (State.setValve_plain h ?_) rfl
    exact .of hx rfl

theorem State.orderEnded_plain (h : PlainStep a s) {t : Target} : PlainStep a (s.orderEnded t .noReply) := by
  unfold State.orderEnded State.valveOrderEnded State.boosterOrderEnded
  dsimp only
  repeat' split
  all_goals simp (maxDischargeDepth := 40) [State.endValveOrder_plain, *]

theorem State.holderValve_plain (h : PlainStep a s) {v : Nat} {c : Bool} : PlainStep a (s.holderValve v false c) := by
  unfold State.holderValve
  dsimp only
  rw [if_neg (fun k => Bool.noConfusion k.1)]
  split
  · exact h
  · split
    · exact h
    · next x hx => exact State.setHolder_plain h (.of hx (by simp))

theorem State.valveActs_plain (h : PlainStep a s) {v : Nat} {c : Bool} : PlainStep a (s.valveActs v false c) := by
  unfold State.valveActs
  exact State.hand_plain (State.holderValve_plain h) (by cases c <;> simp [plain])

/-- A plain hand-off acted on is plain work. -/
theorem act_plain (h : PlainStep a s) {x : Handoff} (p : plain x = true) {owed : Bool} :
    PlainStep a (act x s owed) := by
  cases x <;> try (simp (maxDischargeDepth := 40) [act, *]; done)
  case orderEnded t e => cases e with
    | noReply => exact State.orderEnded_plain h
    | ack r => cases p
  case valveTold v b c => cases b with
    | false => exact State.valveActs_plain h
    | true => cases p
  case fillBar n b => exact State.hand_plain (State.fillBarTold_plain h) rfl
  all_goals cases p

/-! ### What every hand-off leaves -/

/-- A line goes on with its exchange, or is IDLE. -/
def GoesOn (u v : LineUnit) : Prop := (v.mode = u.mode ∧ v.exch = u.exch) ∨ (v.mode = .idle ∧ v.exch = none)

theorem GoesOn.trans {u v w : LineUnit} (h : GoesOn u v) (k : GoesOn v w) : GoesOn u w := by
  rcases k with k | k
  · rcases h with h | h
    · exact .inl ⟨k.1.trans h.1, k.2.trans h.2⟩
    · exact .inr ⟨k.1.trans h.1, k.2.trans h.2⟩
  · exact .inr k

/-- `t` comes from `s` by work that leaves what no hand-off changes. -/
structure KeptStep (s t : State) : Prop where
  kept : t.kept = s.kept
  sound : Sound s → Sound t
  lines : ∀ l, GoesOn (s.line l) (t.line l)

theorem KeptStep.refl (s : State) : KeptStep s s := ⟨rfl, id, fun _ => .inl ⟨rfl, rfl⟩⟩

theorem KeptStep.trans {a b c : State} (h : KeptStep a b) (k : KeptStep b c) : KeptStep a c :=
  ⟨k.kept.trans h.kept, fun x => k.sound (h.sound x), fun l => (h.lines l).trans (k.lines l)⟩

/-- Plain work begins and ends no exchange. -/
theorem PlainStep.goesOn {s t : State} (h : PlainStep s t) (l : FLine) : GoesOn (s.line l) (t.line l) := by
  have e := congrFun (congrArg Calm.line h.calm) l
  simp only [State.calm, lineCalm, LineUnit.mk.injEq] at e
  exact .inl ⟨e.2.2.2.1, e.2.2.2.2.2.2.2.1⟩

theorem PlainStep.keptStep {s t : State} (h : PlainStep s t) : KeptStep s t := ⟨State.kept_of_calm h.calm, h.sound, h.goesOn⟩

/-- Work that touches no line, after work that keeps. -/
theorem KeptStep.and {t : State} (h : KeptStep a s) (p : t.kept = s.kept ∧ (Sound s → Sound t)) (e : t.lines = s.lines := by rfl) :
    KeptStep a t :=
  h.trans ⟨p.1, p.2, fun l => .inl (by cases l <;> simp [State.line, e])⟩

/-- Plain work after work that keeps. -/
theorem KeptStep.plain {t : State} (h : KeptStep a s) (p : PlainStep s t) : KeptStep a t := h.trans p.keptStep

theorem State.hand_kept (h : KeptStep a s) (hs : List Handoff) : KeptStep a (s.hand hs) := h.and ⟨rfl, id⟩

theorem State.setHolder_kept (h : KeptStep a s) {n : Nat} {x y : Holder} (hx : s.holder n = some x) (e : holderView x = holderView y) :
    KeptStep a (s.setHolder n y) :=
  h.and ⟨by
      have k : (fun m => ((s.setHolder n y).holder m).map holderView) = fun m => (s.holder m).map holderView :=
        funext (tblView_put s.holders n y holderView (by rw [show tblGet s.holders n = some x from hx]; exact congrArg some e))
      simp only [State.kept, k]; rfl,
    fun x => ⟨x.1, x.2.1, tblPut_wf _ _ _ x.2.2.1, x.2.2.2⟩⟩

theorem State.setValve_kept (h : KeptStep a s) {n : Nat} {x y : Valve} (hx : s.valve n = some x) (e : valveView x = valveView y) :
    KeptStep a (s.setValve n y) :=
  h.and ⟨by
      have k : (fun m => ((s.setValve n y).valve m).map valveView) = fun m => (s.valve m).map valveView :=
        funext (tblView_put s.valves n y valveView (by rw [show tblGet s.valves n = some x from hx]; exact congrArg some e))
      simp only [State.kept, k]; rfl,
    fun x => ⟨x.1, x.2.1, x.2.2.1, tblPut_wf _ _ _ x.2.2.2.1, x.2.2.2.2⟩⟩

theorem State.setDistrict_kept (h : KeptStep a s) {n : Nat} {x y : District} (hx : s.district n = some x)
    (e : districtView x = districtView y) : KeptStep a (s.setDistrict n y) :=
  h.and ⟨by
      have k : (fun m => ((s.setDistrict n y).district m).map districtView) = fun m => (s.district m).map districtView :=
        funext (tblView_put s.districts n y districtView (by rw [show tblGet s.districts n = some x from hx]; exact congrArg some e))
      simp only [State.kept, k]; rfl,
    fun x => ⟨x.1, x.2.1, x.2.2.1, x.2.2.2.1, tblPut_wf _ _ _ x.2.2.2.2.1, x.2.2.2.2.2⟩⟩

theorem State.setBooster_kept (h : KeptStep a s) {n : Nat} {x y : Booster} (hx : s.booster n = some x)
    (e : boosterView x = boosterView y) : KeptStep a (s.setBooster n y) :=
  h.plain (State.setBooster_plain (.refl _) (.of hx e))

theorem State.setMeter_kept (h : KeptStep a s) {n : Nat} {m : Meter} (e : meterView m = meterView (s.meter n)) :
    KeptStep a (s.setMeter n m) :=
  h.and ⟨by
      have k : (fun j => meterView ((s.setMeter n m).meter j)) = fun j => meterView (s.meter j) := by
        funext j; rw [State.meter_setMeter]; split <;> simp_all
      simp only [State.kept, k]; rfl,
    fun x => ⟨x.1, x.2.1, x.2.2.1, x.2.2.2.1, x.2.2.2.2.1, x.2.2.2.2.2.1, tblPut_wf _ _ _ x.2.2.2.2.2.2.1, x.2.2.2.2.2.2.2⟩⟩

theorem State.modAcct_kept (h : KeptStep a s) {f : Account → Account} (e : (f s.acct.openAcct).number = s.acct.openAcct.number) :
    KeptStep a (s.modAcct f) :=
  h.and ⟨by simp only [State.kept, State.modAcct, e]; rfl, id⟩

theorem State.modPart_kept (h : KeptStep a s) {n : Nat} {f : Part → Part} : KeptStep a (s.modPart n f) :=
  State.modAcct_kept h (by
    split
    · unfold setPart; split <;> rfl
    · rfl)

theorem selectNext_view (u : LineUnit) : lineView (wakeUnit u) = lineView u := by
  have e := wakeUnit_calm u
  simp only [lineCalm, LineUnit.mk.injEq] at e
  simp [lineView, e]

/-- A line that enters IDLE has no exchange. -/
theorem enterIdle_idle (u : LineUnit) : (enterIdle u).mode = .idle ∧ (enterIdle u).exch = none := by
  have e := wakeUnit_calm { u with mode := .idle, exch := none, sending := none, rate := (lineSet u).rate }
  simp only [lineCalm, LineUnit.mk.injEq] at e
  exact ⟨e.2.2.2.1, e.2.2.2.2.2.2.2.1⟩

theorem State.line_lineIdle (s : State) (l k : FLine) : (s.lineIdle l).line k = if k = l then enterIdle (s.line l) else s.line k := by
  rw [State.lineIdle, State.line_modLine]

theorem State.lineIdle_kept (h : KeptStep a s) {l : FLine} : KeptStep a (s.lineIdle l) :=
  h.trans ⟨by
      have e : lineView (enterIdle (s.line l)) = lineView (s.line l) := (selectNext_view _).trans rfl
      have k : (fun j => lineView ((s.lineIdle l).line j)) = fun j => lineView (s.line j) := by
        funext j; rw [State.lineIdle, State.line_modLine]; split
        · subst_vars; exact e
        · rfl
      simp only [State.kept, k]; cases l <;> rfl,
    fun x => by cases l <;> exact x,
    fun k => by
      rw [State.line_lineIdle]; split
      · exact .inr (enterIdle_idle _)
      · exact .inl ⟨rfl, rfl⟩⟩

theorem State.giveAnswer_kept (h : KeptStep a s) {t c : Nat} {r : Result} {w : Option Reason} {d : AnswerData} :
    KeptStep a (s.giveAnswer t c r w d) :=
  h.and ⟨by simp [State.giveAnswer, State.kept]; exact ⟨rfl, rfl, rfl, rfl, rfl, rfl⟩,
    fun x => ⟨placeAnswer_sound _ _ _ _ _ x.1, x.2⟩⟩

/-! ### The order unit -/

theorem State.setLocal_kept (h : KeptStep a s) {v : Nat} {b : Bool} : KeptStep a (s.setLocal v b) := by
  unfold State.setLocal
  split
  · next x hx => exact State.setValve_kept h hx (by rfl)
  · exact h

theorem State.endValveOrder_kept (h : KeptStep a s) {v : Nat} {sl : Slot} {st : Option VState} {o : SlotOutcome} {b : Bool}
    {c : List Handoff} : KeptStep a (s.endValveOrder v sl st o b c) := by
  unfold State.endValveOrder
  dsimp only
  refine State.hand_kept (h.plain (State.freeSlot_plain ?_)) _
  split
  · exact State.setValveState_plain (.refl _)
  · exact .refl _

theorem State.valveOrderEnded_kept (h : KeptStep a s) {v : Nat} {sl : Slot} {e : OrderEnd} :
    KeptStep a (s.valveOrderEnded v sl e) := by
  unfold State.valveOrderEnded
  dsimp only
  repeat' split
  all_goals first
    | with_reducible exact State.endValveOrder_kept h
    | with_reducible exact State.endValveOrder_kept (h.plain (State.notify_plain (.refl _)))
    | with_reducible exact State.endValveOrder_kept ((State.setLocal_kept h).plain (State.notify_plain (.refl _)))
    | with_reducible exact h.plain (State.reverse_plain (.refl _))
    | with_reducible exact h.plain (State.startTravel_plain (.refl _))

theorem State.boosterOrderEnded_kept (h : KeptStep a s) {b : Nat} {sl : Slot} {e : OrderEnd} :
    KeptStep a (s.boosterOrderEnded b sl e) := by
  unfold State.boosterOrderEnded
  repeat' split
  all_goals first
    | exact h
    | exact h.plain (State.reverse_plain (.refl _))
    | exact h.plain (State.endBoosterOrder_plain (.refl _))
    | exact h.plain (State.failBoosterOrder_plain (.refl _))
    | exact State.hand_kept (State.setBooster_kept h (by assumption) (by rfl)) _

theorem State.orderEnded_kept (h : KeptStep a s) {t : Target} {e : OrderEnd} : KeptStep a (s.orderEnded t e) := by
  unfold State.orderEnded
  repeat' split
  · exact h
  · exact h
  · exact State.valveOrderEnded_kept h
  · exact h.plain (State.governorOrderEnded_plain (.refl _))
  · exact State.boosterOrderEnded_kept h

theorem State.judgeValve_kept (h : KeptStep a s) {v : Nat} {sl : Slot} {b : Bool} : KeptStep a (s.judgeValve v sl b) := by
  unfold State.judgeValve
  exact (State.endValveOrder_kept h).plain (State.notify_plain (.refl _))

theorem State.judgeCheck_kept (h : KeptStep a s) {v : Nat} {r : CheckResult} : KeptStep a (s.judgeCheck v r) := by
  unfold State.judgeCheck
  split
  · exact h
  · split
    · split
      · exact State.judgeValve_kept h
      · split
        · exact State.endValveOrder_kept h
        · exact State.judgeValve_kept h
    · exact h

theorem State.valveReport_kept (h : KeptStep a s) {v : Nat} {body : List Word} : KeptStep a (s.valveReport v body) := by
  unfold State.valveReport
  dsimp only
  split
  · unfold State.valvePosition
    split
    · exact State.setLocal_kept h
    · dsimp only
      split
      · unfold State.travelReport
        repeat' split
        all_goals first
          | exact State.endValveOrder_kept (State.setLocal_kept h)
          | exact State.setLocal_kept h
      · refine State.hand_kept ?_ _
        have k : ∀ {st}, KeptStep a ((s.setLocal v (condLocal (condWord body))).setValveState v st) := fun {st} =>
          (State.setLocal_kept h).plain (State.setValveState_plain (.refl _))
        split
        · exact k.plain (State.notify_plain (.refl _))
        · exact k
  · exact State.setLocal_kept h

/-! ### The holder unit -/

/-- A holder that enters a state: its state and blind shut due are changed, and the rest is plain work. -/
theorem State.enterState_plain {n : Nat} {x : Holder} {st : HState} :
    PlainStep (s.setHolder n { x with rt := { x.rt with state := st, longStill := x.rt.longStill && st != .blind, blindShutDue := false } }) (s.enterState n x st) := by
  unfold State.enterState
  dsimp only
  refine State.hand_plain (State.entryShuts_plain ?_) ((plain_append _ _).2 ⟨(plain_append _ _).2 ⟨?_, ?_⟩, rfl⟩)
  · refine ⟨?_, rfl, fun y => ⟨y.1, y.2.1, ?_, y.2.2.2⟩, [], (List.append_nil _).symm, rfl⟩
    · simp only [State.calm, Calm.mk.injEq]
      refine ⟨rfl, rfl, rfl, rfl, rfl, rfl, rfl, rfl, rfl, ?_, rfl, rfl, rfl, rfl, rfl, rfl, rfl, rfl, rfl, rfl, rfl, rfl, rfl,
        rfl, rfl, rfl, rfl, rfl, rfl⟩
      funext m
      simp only [State.holder_setHolder]
      split <;> rfl
    · have k := y.2.2.1
      unfold tblWf at k ⊢
      rw [decide_eq_true_eq] at k ⊢
      exact (tblPut_keysEq s.holders n _ _) ▸ k
  · split <;> rfl
  · split <;> rfl

/-- The state is re-derived: the same, or another that is entered. -/
theorem State.rederiveFrom_plain {n : Nat} {x : Holder} {b : HolderRt} (hx : s.holder n = some x) :
    if s.derivedState x = x.rt.state then PlainStep s (s.rederiveFrom n b)
    else PlainStep (s.setHolder n { x with rt := { x.rt with state := s.derivedState x, longStill := x.rt.longStill && s.derivedState x != .blind, blindShutDue := false } })
      (s.rederiveFrom n b) := by
  unfold State.rederiveFrom
  rw [hx]
  dsimp only
  by_cases e : s.derivedState x = x.rt.state
  · rw [if_pos e, if_neg (fun k => k e)]
    split
    · exact State.hand_plain (.refl s) rfl
    · exact .refl s
  · rw [if_neg e, if_pos e]
    exact State.enterState_plain

theorem State.rederiveFrom_kept (h : KeptStep a s) {n : Nat} {b : HolderRt} : KeptStep a (s.rederiveFrom n b) := by
  cases hx : s.holder n with
  | none => unfold State.rederiveFrom; rw [hx]; exact h
  | some x =>
    have k := State.rederiveFrom_plain (b := b) hx
    split at k
    · exact h.plain k
    · exact (State.setHolder_kept h hx (by rfl)).plain k

theorem State.addCause_kept (h : KeptStep a s) {n : Nat} {c : Cause} : KeptStep a (s.addCause n c) := by
  unfold State.addCause
  split
  · exact h
  · next x hx =>
    split
    · exact h
    · exact State.rederiveFrom_kept (State.setHolder_kept h hx (by rfl))

theorem State.fastRise_kept (h : KeptStep a s) {n : Nat} {r : HolderRec} {k : Int} : KeptStep a (s.fastRise n r k) := by
  unfold State.fastRise
  split
  · exact h
  · next x hx =>
    have m : ∀ b, KeptStep a (s.modHolder n fun rt => { rt with fast := b }) := fun b => by
      unfold State.modHolder
      split
      · next y hy => exact State.setHolder_kept h hy (by rfl)
      · exact h
    repeat' split
    · exact h
    · exact (m true).plain (State.notify_plain (.refl _))
    · exact m false

theorem State.gaugeReport_kept (h : KeptStep a s) {n : Nat} {body : List Word} : KeptStep a (s.gaugeReport n body) := by
  unfold State.gaugeReport
  split
  · exact h
  · next x hx =>
    repeat' split
    · exact h
    · exact State.addCause_kept h
    · unfold State.usableSample
      dsimp only
      split
      · exact State.rederiveFrom_kept (State.setHolder_kept h hx (by rfl))
      · refine State.rederiveFrom_kept ?_
        split
        · exact State.fastRise_kept (State.setHolder_kept h hx (by rfl))
        · exact State.setHolder_kept h hx (by rfl)

theorem State.gaugeLost_kept (h : KeptStep a s) {n : Nat} : KeptStep a (s.gaugeLost n) := by
  unfold State.gaugeLost
  split
  · exact h
  · next x hx => exact State.rederiveFrom_kept (State.setHolder_kept h hx (by rfl))

theorem State.valveCleared_kept (h : KeptStep a s) {v : Nat} : KeptStep a (s.valveCleared v) := by
  refine h.and ⟨?_, fun x => ⟨x.1, x.2.1, ?_, x.2.2.2⟩⟩
  · have k : (fun n => ((s.valveCleared v).holder n).map holderView) = fun n => (s.holder n).map holderView := by
      funext n
      have e := tblGet_map s.holders (fun p : Nat × Holder =>
        { p.2 with rt := { p.2.rt with causes := clearValveCauses p.2.rt.causes v } }) n
      exact (congrArg (Option.map holderView) e).trans (by rw [Option.map_map]; rfl)
    simp only [State.kept, k]
    rfl
  · have e := tblWf_map s.holders fun p => { p.2 with rt := { p.2.rt with causes := clearValveCauses p.2.rt.causes v } }
    exact e.trans x.2.2.1

theorem State.valveActs_kept (h : KeptStep a s) {v : Nat} {b c : Bool} : KeptStep a (s.valveActs v b c) := by
  unfold State.valveActs State.holderValve
  refine State.hand_kept ?_ _
  dsimp only
  generalize e : (if b = true ∧ (s.valveState v = some .shut ∨ s.valveState v = some .opened) then s.valveCleared v else s) = t
  have k : KeptStep a t := by
    subst e
    split
    · exact State.valveCleared_kept h
    · exact h
  split
  · exact k
  · split
    · exact k
    · next x hx => exact State.setHolder_kept k hx (by rfl)

/-! ### The pressure, booster and account units -/

theorem State.modDistrict_kept (h : KeptStep a s) {d : Nat} {f : DistrictRt → DistrictRt} : KeptStep a (s.modDistrict d f) := by
  unfold State.modDistrict
  split
  · next x hx => exact State.setDistrict_kept h hx (by rfl)
  · exact h

theorem State.recorderReport_kept (h : KeptStep a s) {d : Nat} {body : List Word} : KeptStep a (s.recorderReport d body) := by
  unfold State.recorderReport
  split
  · exact h
  · next x hx =>
    split
    · exact h
    split
    · exact (State.setDistrict_kept h hx (by rfl)).plain (State.districtDerive_plain (.refl _))
    · exact State.hand_kept ((State.setDistrict_kept h hx (by rfl)).plain (State.districtAfresh_plain (.refl _))) _

theorem State.reportFrees_plain (h : PlainStep a s) {b : Nat} {r : Bool} : PlainStep a (s.reportFrees b r) := by
  unfold State.reportFrees
  repeat' split
  all_goals simp (maxDischargeDepth := 20) [*]

theorem State.boosterReport_kept (h : KeptStep a s) {b : Nat} {body : List Word} : KeptStep a (s.boosterReport b body) := by
  unfold State.boosterReport
  split
  · exact h
  · next x hx =>
    split
    · exact h
    · split
      · exact h
      · dsimp only
        refine State.hand_kept (KeptStep.plain ?_ (State.reportFrees_plain (.refl _))) _
        have k : ∀ {y}, boosterView x = boosterView y → KeptStep a (s.setBooster b y) := fun e => State.setBooster_kept h hx e
        unfold State.reportDecides State.reportActs
        repeat' split
        all_goals first
          | exact k (by rfl)
          | exact (k (by rfl)).plain (State.boosterRuns_plain (.refl _))
          | exact (k (by rfl)).plain (State.boosterFreed_plain (.refl _))
          | exact (k (by rfl)).plain (State.boosterFails_plain (.refl _))

theorem State.free_kept (h : KeptStep a s) {n : Nat} : KeptStep a { s with free := n } := h.and ⟨rfl, id⟩

theorem State.meterReport_kept (h : KeptStep a s) {n : Nat} {body : List Word} : KeptStep a (s.meterReport n body) := by
  unfold State.meterReport State.meterTotal State.rejectDelta State.creditDelta
  dsimp only
  repeat' split
  all_goals first
    | exact h
    | exact State.setMeter_kept h (by rfl)
    | exact KeptStep.plain (State.free_kept (State.setMeter_kept h (by rfl))) (State.notify_plain (.refl _))
    | exact State.free_kept (State.modPart_kept (State.setMeter_kept h (by rfl)))

theorem State.meterLost_kept (h : KeptStep a s) {n : Nat} : KeptStep a (s.meterLost n) :=
  State.modPart_kept (State.setMeter_kept h (by rfl))

/-! ### Owners of roles, damage -/

theorem State.owner_kept (h : KeptStep a s) {t : Telegram} : KeptStep a (s.owner t) := by
  unfold State.owner
  split
  · exact State.gaugeReport_kept h
  · exact State.valveReport_kept h
  · exact State.setLocal_kept h
  · exact State.modDistrict_kept h
  · exact State.recorderReport_kept h
  · exact State.meterReport_kept h
  · exact State.meterReport_kept h
  · exact State.boosterReport_kept h
  · exact h

theorem State.ownerLost_kept (h : KeptStep a s) {st : Nat} : KeptStep a (s.ownerLost st) := by
  unfold State.ownerLost
  split
  · exact State.gaugeLost_kept h
  · exact h.plain (State.districtDerive_plain (.refl _))
  · exact State.meterLost_kept h
  · exact State.meterLost_kept h
  · exact h

theorem State.boosterDamage_kept (h : KeptStep a s) {b : Nat} : KeptStep a (s.boosterDamage b) := by
  unfold State.boosterDamage
  split
  · exact h
  · next x hx =>
    split
    · exact State.setBooster_kept h hx (by rfl)
    · exact State.setBooster_kept h hx (by rfl)
    · exact h.plain (State.tellBoost_plain (.refl _))
    · exact h

theorem State.setEntry_kept (h : KeptStep a s) {st : Nat} {e : DirEntry} : KeptStep a (s.setEntry st e) :=
  h.and ⟨rfl, fun x => ⟨x.1, x.2.1, x.2.2.1, x.2.2.2.1, x.2.2.2.2.1, x.2.2.2.2.2.1, x.2.2.2.2.2.2.1, tblPut_wf _ _ _ x.2.2.2.2.2.2.2.1,
    x.2.2.2.2.2.2.2.2⟩⟩

theorem State.removeEntry_kept (h : KeptStep a s) {st : Nat} : KeptStep a (s.removeEntry st) :=
  h.and ⟨rfl, fun x => ⟨x.1, x.2.1, x.2.2.1, x.2.2.2.1, x.2.2.2.2.1, x.2.2.2.2.2.1, x.2.2.2.2.2.2.1, tblDel_wf _ _ x.2.2.2.2.2.2.2.1,
    x.2.2.2.2.2.2.2.2⟩⟩

theorem State.entryDamage_kept (h : KeptStep a s) {st : Nat} : KeptStep a (s.entryDamage st) := by
  unfold State.entryDamage
  repeat' split
  · exact h
  · exact State.hand_kept (State.setEntry_kept h) _
  · exact State.removeEntry_kept h

theorem State.yardTaken_kept (h : KeptStep a s) {y : YardRec} : KeptStep a (s.yardTaken y) := by
  unfold State.yardTaken
  exact State.hand_kept (s := { s with relay := { s.relay with agingDue := agingAfter s.elapsed s.relay.agingDue s.yardNow.aging } })
    (h.and ⟨rfl, id⟩) _

theorem State.poolManual_kept (h : KeptStep a s) : KeptStep a s.poolManual := by
  unfold State.poolManual
  refine State.hand_kept (s := { s with boosters := s.boosters.map fun p => (p.1, { p.2 with releaseDue := none }) })
    (h.and ⟨?_, fun x => ⟨x.1, x.2.1, x.2.2.1, x.2.2.2.1, x.2.2.2.2.1, ?_, x.2.2.2.2.2.2⟩⟩) _
  · have k : (fun n => ((tblGet (s.boosters.map fun p => (p.1, { p.2 with releaseDue := none })) n).map boosterView))
        = fun n => (s.booster n).map boosterView := by
      funext n
      have e := tblGet_map s.boosters (fun p : Nat × Booster => { p.2 with releaseDue := none }) n
      exact (congrArg (Option.map boosterView) e).trans (by rw [Option.map_map]; rfl)
    simp only [State.kept, State.booster] at k ⊢
    simp only [k]
    rfl
  · have e := tblWf_map s.boosters fun p => { p.2 with releaseDue := none }
    exact e.trans x.2.2.2.2.2.1

theorem State.drawManual_kept (h : KeptStep a s) : KeptStep a s.drawManual :=
  h.plain (State.modDraw_plain (.refl _) (by exact fun _ => rfl))

theorem State.damageActs_kept (h : KeptStep a s) {m : Mode × Mode} {y : YardRec} {r : RecordRef} :
    KeptStep a (s.damageActs m y r) := by
  unfold State.damageActs
  repeat' split
  all_goals first
    | exact h
    | exact State.hand_kept h _
    | exact State.hand_kept (State.modDistrict_kept h) _
    | exact State.boosterDamage_kept h
    | exact State.setMeter_kept h (by rfl)
    | exact State.yardTaken_kept h
    | exact State.entryDamage_kept h
    | exact State.drawManual_kept h
    | exact State.poolManual_kept h

/-! ### One hand-off, and all of them -/

/-- A hand-off acted on leaves what no hand-off changes. -/
theorem act_kept (h : KeptStep a s) (x : Handoff) (owed : Bool) : KeptStep a (act x s owed) := by
  cases p : plain x with
  | true => exact h.plain (act_plain (.refl _) p)
  | false =>
    cases x <;> first
      | exact State.orderEnded_kept h
      | exact State.valveActs_kept h
      | exact State.judgeCheck_kept h
      | exact State.addCause_kept h
      | exact State.ownerLost_kept h
      | exact State.owner_kept h
      | exact State.lineIdle_kept h
      | exact State.giveAnswer_kept h
      | exact State.damageActs_kept h
      | exact nomatch p

/-- Whatever is handed on, what `State.kept` holds stands at the end of the step. -/
theorem settle_kept (n : Nat) (s : State) : KeptStep s (settle n s) := by
  induction n generalizing s with
  | zero => exact .refl s
  | succ n ih =>
    unfold settle
    split
    · exact .refl s
    · next x rest _ =>
      have k := act_kept (.refl { s with handoffs := [] }) x (owesAnswer rest)
      exact KeptStep.trans (b := { act x { s with handoffs := [] } (owesAnswer rest) with
        handoffs := (act x { s with handoffs := [] } (owesAnswer rest)).handoffs ++ rest }) ⟨k.kept, k.sound, k.lines⟩ (ih _)

/-- A line that is to enter IDLE is IDLE once nothing more waits. -/
theorem settle_idle (n : Nat) (s : State) (l : FLine) (h : Handoff.lineIdle l ∈ s.handoffs ∨ (s.line l).mode = .idle)
    (e : (settle n s).handoffs = []) : ((settle n s).line l).mode = .idle := by
  induction n generalizing s with
  | zero => rcases h with h | h; · simp [show s.handoffs = [] from e] at h
            · exact h
  | succ n ih =>
    unfold settle at e ⊢
    split at e
    · next w => rcases h with h | h; · simp [w] at h
                · simpa [w] using h
    · next x rest w =>
      simp only
      refine ih _ ?_ e
      have g := (act_kept (.refl { s with handoffs := [] }) x (owesAnswer rest)).lines l
      rcases h with h | h
      · rcases List.mem_cons.1 (w ▸ h) with rfl | h
        · exact .inr (by rw [show act (.lineIdle l) { s with handoffs := [] } (owesAnswer rest) = State.lineIdle { s with handoffs := [] } l from rfl]
                         exact (congrArg LineUnit.mode (State.line_lineIdle _ l l)).trans (by simp [(enterIdle_idle _).1]))
        · exact .inl (List.mem_append_right _ h)
      · exact .inr (g.elim (fun k => k.1.trans h) (·.1))

/-- Plain hand-offs leave what is calm, and the last answer. -/
theorem settle_plain (n : Nat) (s : State) (p : Plain s.handoffs) :
    (settle n s).calm = s.calm ∧ (settle n s).desk.lastAnswer = s.desk.lastAnswer := by
  induction n generalizing s with
  | zero => exact ⟨rfl, rfl⟩
  | succ n ih =>
    unfold settle
    split
    · exact ⟨rfl, rfl⟩
    · next x rest e =>
      rw [e, plain_cons] at p
      have k := act_plain (.refl { s with handoffs := [] }) p.1 (owed := owesAnswer rest)
      obtain ⟨hs, e', p'⟩ := k.made
      have q := ih { act x { s with handoffs := [] } (owesAnswer rest) with
        handoffs := (act x { s with handoffs := [] } (owesAnswer rest)).handoffs ++ rest } (by
        simp only [e', List.nil_append, plain_append]
        exact ⟨p', p.2⟩)
      exact ⟨q.1.trans k.calm, q.2.trans k.answer⟩

/-- With nothing handed on, nothing more happens. -/
theorem settle_nil (n : Nat) (s : State) (h : s.handoffs = []) : settle n s = s := by
  cases n with
  | zero => rfl
  | succ n => unfold settle; rw [h]

theorem finish_nil (s : State) (h : s.handoffs = []) : finish s = .next s := by
  rw [finish, settle_nil _ _ h]

/-! ### The errors that reads meet -/

theorem KeptStep.mem {s t : State} (h : KeptStep s t) : t.mem = s.mem := congrArg Standing.mem h.kept

theorem State.markDamaged_mem (s : State) (r : RecordRef) : (s.markDamaged r).mem = s.mem := by
  cases r <;> simp only [State.markDamaged, State.modBooster, State.modEntry, State.setMeterStation]
  all_goals repeat' split
  all_goals first | rfl | simp

theorem State.recordDamaged_mem (s : State) (r : RecordRef) : (s.recordDamaged r).mem = s.mem :=
  (State.damageActs_kept (.refl _)).mem.trans (s.markDamaged_mem r)

theorem State.corrected_met (s : State) : s.corrected.mem.met = s.mem.met := by
  unfold State.corrected
  simp only
  split <;> rfl

theorem State.readRecord_met (fs : Findings) (a : State × Nat × Nat) (r : RecordRef) :
    (State.readRecord fs a r).1.mem.met = a.1.mem.met := by
  unfold State.readRecord
  repeat' split
  · rfl
  · rfl
  · exact State.corrected_met _
  · exact congrArg TableMem.met (State.recordDamaged_mem _ _)

theorem State.errorFound_met (s : State) (e : Met) : (s.errorFound e).mem.met = s.mem.met := by
  unfold State.errorFound
  simp only
  repeat' split
  · rfl
  · exact State.readRecord_met _ _ _
  · exact State.readRecord_met _ _ _

theorem State.meetErrors_met (s : State) : s.meetErrors.mem.met = [] := by
  suffices h : ∀ (l : List Met) (t : State), (l.foldl State.errorFound t).mem.met = t.mem.met from h _ _
  intro l
  induction l with
  | nil => exact fun _ => rfl
  | cons e r ih => exact fun t => (ih _).trans (t.errorFound_met e)

/-- Where no read of the step meets an error, the reads leave the state. -/
@[simp] theorem State.errorsRead_none {s : State} (h : s.mem.met = []) : s.errorsRead = s := by simp [State.errorsRead, h]

/-- The errors are met once. -/
@[simp] theorem State.errorsRead_met (s : State) : s.errorsRead.mem.met = [] := by
  unfold State.errorsRead
  split
  · assumption
  · exact (congrArg TableMem.met (settle_kept _ _).mem).trans s.meetErrors_met

/-- Where no read of the step meets an error, a command's step is its own effect. -/
theorem afterReads_quiet (f : State → State) {s : State} (h : s.mem.met = []) : afterReads f s = finish (f s) := by
  rw [afterReads, State.errorsRead_none h]

/-- A command acts on the state in which the errors of its step have been found. -/
theorem afterReads_errorsRead (f : State → State) (s : State) : afterReads f s.errorsRead = afterReads f s := by
  rw [afterReads, afterReads, State.errorsRead_none s.errorsRead_met]

/-! ### The last hand-off -/

/-- Plain hand-offs and then one last hand-off that hands nothing on: what is calm stands, and once all is acted on the last
one was acted on last. -/
theorem settle_last (n : Nat) (s : State) (hs : List Handoff) (x : Handoff) (e : s.handoffs = hs ++ [x]) (p : Plain hs)
    (made : ∀ t : State, (act x t).handoffs = t.handoffs) (still : ∀ t : State, (act x t).calm = t.calm) :
    (settle n s).calm = s.calm ∧ ((settle n s).handoffs = [] →
      ∃ t : State, t.calm = s.calm ∧ t.handoffs = [] ∧ settle n s = act x t) := by
  induction n generalizing s hs with
  | zero => exact ⟨rfl, fun h => by simp [settle, e] at h⟩
  | succ n ih =>
    cases hs with
    | nil =>
      have e1 : settle (n + 1) s = act x { s with handoffs := [] } := by
        unfold settle
        simp only [e, List.nil_append, owesAnswer, List.any_nil]
        rw [settle_nil _ _ (by simp [made])]
        simp only [List.append_nil]
      rw [e1]
      exact ⟨still _, fun _ => ⟨{ s with handoffs := [] }, rfl, rfl, rfl⟩⟩
    | cons h r =>
      rw [plain_cons] at p
      have k := act_plain (.refl { s with handoffs := [] }) p.1 (owed := owesAnswer (r ++ [x]))
      obtain ⟨ms, e', p'⟩ := k.made
      let w := act h { s with handoffs := [] } (owesAnswer (r ++ [x]))
      have q := ih { w with handoffs := w.handoffs ++ (r ++ [x]) }
        (ms ++ r) (by simp only [w, e', List.nil_append, List.append_assoc]) ((plain_append _ _).2 ⟨p', p.2⟩)
      have e2 : settle (n + 1) s = settle n { w with handoffs := w.handoffs ++ (r ++ [x]) } := by
        rw [settle, e]; rfl
      rw [e2]
      refine ⟨q.1.trans k.calm, fun he => ?_⟩
      obtain ⟨t, a, b, c⟩ := q.2 he
      exact ⟨t, a.trans k.calm, b, c⟩

end Sys2Proof.Machine
end

