-- ==== Sys2Proof/Laws/Answers.lean ====
section
/-! SUPPORT. The taking of an ASK and the answers to it: what a request does that hands on its answer alone, or its answer after
plain hand-offs. -/

set_option Elab.async false

namespace Sys2Proof.Machine

/-- An ASK that is taken is acted on. -/
theorem State.takeAsk_takes {s : State} {h : AskHead} {code : Nat} (t : Takes s h code) (act : State → State) :
    s.takeAsk h code act = act s := by
  unfold State.takeAsk State.deskServes
  simp [t.2.1, t.2.2]

/-- With room in the transmit queue, the answer enters it. -/
theorem State.giveAnswer_room (s : State) (h : AskHead) (c : Nat) (r : Result) (w : Option Reason) (d : AnswerData)
    (room : s.desk.tx.length < Config.deskTxCap) : s.giveAnswer h.tag c r w d = s.answered h c r w d := by
  simp [State.giveAnswer, State.answered, placeAnswer, answerRoom, room]

theorem State.answerRelayed_room (s : State) (t : DeskTelegram) (c : Nat) (r : Result) (w : Option Reason)
    (room : s.desk.tx.length < Config.deskTxCap) : s.answerRelayed t.tag c r w t.dest = s.answeredRelayed t c r w := by
  simp [State.answerRelayed, State.answeredRelayed, placeAnswer, answerRoom, room]

/-! ### Parked orders -/

theorem parkedFor_eq_some (v : Nat) (x : Holder) (g : DeskRef) :
    parkedFor v x = some g ↔ ∃ q, x.rt.park = some q ∧ q.valve = v ∧ q.tag = g := by
  unfold parkedFor
  cases x.rt.park <;> simp

theorem parkedFor_eq_none (v : Nat) (x : Holder) : parkedFor v x = none ↔ ∀ q, x.rt.park = some q → q.valve ≠ v := by
  unfold parkedFor
  cases x.rt.park <;> simp

theorem unparked_of_none {v : Nat} {x : Holder} (h : parkedFor v x = none) : unparked v x = x := by simp [unparked, h]

/-- No order for the valve is left in a park slot that a SHUT claim has reached. -/
@[simp] theorem parkedFor_unparked (v : Nat) (x : Holder) : parkedFor v (unparked v x) = none := by
  unfold unparked
  split
  · rfl
  · next h => simpa using h

/-- An order parked for another valve stays. -/
theorem unparked_park (v : Nat) (x : Holder) : (unparked v x).rt.park = x.rt.park.filter fun q => q.valve != v := by
  unfold unparked parkedFor
  cases h : x.rt.park with
  | none => simp [h]
  | some q => by_cases e : q.valve = v <;> simp [Option.filter, h, e]

/-- A SHUT claim answers no parked order where none is parked for its valve. -/
theorem State.supersedeParked_none {s : State} {v : Nat} (h : ∀ p q, p ∈ s.holders → p.2.rt.park = some q → q.valve ≠ v) (owed : Bool) :
    s.supersedeParked v owed = s := by
  have k : ∀ p ∈ s.holders, parkedFor v p.2 = none := fun p m => (parkedFor_eq_none v p.2).2 fun q => h p q m
  have e : s.holders.map (fun p => (p.1, unparked v p.2)) = s.holders :=
    (List.map_congr_left fun p m => by rw [unparked_of_none (k p m)]; rfl).trans (List.map_id _)
  have t : s.holders.filterMap (fun p => parkedFor v p.2) = [] := List.filterMap_eq_nil_iff.2 k
  rw [State.supersedeParked, e, t]
  rfl

/-- A SHUT claim answers every order parked for its valve and empties its slot. -/
theorem State.supersedeParked_eq (s : State) (v : Nat) : s.supersedeParked v = s.parkedSuperseded v := by
  have tag : ∀ x : Holder, parkedFor v x = (x.rt.park.filter fun q => q.valve == v).map (·.tag) := fun x => by
    unfold parkedFor
    cases x.rt.park with
    | none => rfl
    | some q => by_cases e : q.valve = v <;> simp [Option.filter, e]
  have slot : ∀ x : Holder, unparked v x
      = if (x.rt.park.filter fun q => q.valve == v) = none then x else { x with rt := { x.rt with park := none } } := fun x => by
    rw [unparked, tag]
    cases x.rt.park.filter fun q => q.valve == v <;> rfl
  simp only [State.supersedeParked, State.parkedSuperseded, tag, slot]
  rfl

/-- A SHUT claim on a valve: what its slot makes of it, and the orders parked for the valve answered. -/
theorem State.claim_shut (s : State) (v a : Nat) (o : Origin) (tag : Option DeskRef) :
    s.claim (.valve v) .shut a o tag = (s.claimSlot (.valve v) .shut a o tag).parkedSuperseded v :=
  State.supersedeParked_eq _ v

/-- Any other claim on a valve answers no parked order. -/
theorem State.claim_not_shut (s : State) (v a : Nat) {c : OrderCode} (h : c ≠ .shut) (o : Origin) (tag : Option DeskRef) (owed : Bool) :
    s.claim (.valve v) c a o tag owed = s.claimSlot (.valve v) c a o tag owed := by
  cases c <;> first | rfl | exact absurd rfl h

/-- What a SHUT claim leaves of a holder. -/
theorem State.supersedeParked_holder (s : State) (v n : Nat) (owed : Bool) :
    (s.supersedeParked v owed).holder n = (s.holder n).map (unparked v) := by
  unfold State.supersedeParked State.holder
  rw [State.answerEach_holders]
  exact tblGet_map s.holders (fun p : Nat × Holder => unparked v p.2) n

/-- One hand-off that hands nothing on is all that happens. -/
theorem finish_one (s : State) (x : Handoff) (e : s.handoffs = [x]) (made : ∀ t : State, (act x t).handoffs = t.handoffs) :
    finish s = .next (act x { s with handoffs := [] }) := by
  have h : Config.handoffBound = 99999 + 1 := rfl
  rw [finish, h, settle, e]
  simp only [List.append_nil, owesAnswer, List.any_nil]
  rw [settle_nil _ _ (by rw [made])]

/-- A request that hands on its answer alone ends with the answer given. -/
theorem finish_reply (s : State) (h : AskHead) (c : Nat) (r : Result) (w : Option Reason) (d : AnswerData) (quiet : s.handoffs = [])
    (room : s.desk.tx.length < Config.deskTxCap) :
    finish (s.hand [.reply h.tag c r w d]) = .next (s.answered h c r w d) := by
  rw [finish_one _ (.reply h.tag c r w d) (by simp [quiet]) (fun _ => rfl)]
  have e : ({ s.hand [.reply h.tag c r w d] with handoffs := [] } : State) = s := by rw [← quiet]; rfl
  rw [e, act, State.giveAnswer_room _ _ _ _ _ _ room]

/-- The answer that gives the run state. -/
theorem finish_replyRunState (s : State) (h : AskHead) (c : Nat) (r : Result) (w : Option Reason) (ws : List Nat)
    (quiet : s.handoffs = []) (room : s.desk.tx.length < Config.deskTxCap) :
    finish (s.hand [.replyRunState h.tag c r w ws]) = .next (s.answered h c r w (.words (ws ++ [runStateCode s.runState]))) := by
  rw [finish_one _ (.replyRunState h.tag c r w ws) (by simp [quiet]) (fun _ => rfl)]
  have e : ({ s.hand [.replyRunState h.tag c r w ws] with handoffs := [] } : State) = s := by rw [← quiet]; rfl
  rw [e, act, State.giveAnswer_room _ _ _ _ _ _ room]

/-- The answer that gives the flags. -/
theorem finish_replyFlags (s : State) (h : AskHead) (quiet : s.handoffs = []) (room : s.desk.tx.length < Config.deskTxCap) :
    finish (s.hand [.replyFlags h.tag]) = .next (s.answered h 8 .done none (.words [s.flags.toNat])) := by
  rw [finish_one _ (.replyFlags h.tag) (by simp [quiet]) (fun _ => rfl)]
  have e : ({ s.hand [.replyFlags h.tag] with handoffs := [] } : State) = s := by rw [← quiet]; rfl
  rw [e, act, State.giveAnswer_room _ _ _ _ _ _ room]

/-- What stands after plain hand-offs and an answer made last. -/
structure Answered (u t : State) (h : AskHead) (c : Nat) (r : Result) (w : Option Reason) (d : AnswerData) : Prop where
  calm : t.calm = u.calm
  answers : Answers t h c r w d

theorem State.giveAnswer_calm (t : State) (tag c : Nat) (r : Result) (w : Option Reason) (d : AnswerData) :
    (t.giveAnswer tag c r w d).calm = t.calm := by
  simp [State.giveAnswer, State.calm, State.holder, State.valve, State.district, State.booster, State.line]

/-- Plain hand-offs and then the answer: what is calm stands as the request left it, and the answer is the last one. -/
theorem finish_last (s u : State) (hs : List Handoff) (h : AskHead) (c : Nat) (r : Result) (w : Option Reason) (d : AnswerData)
    (e : s.handoffs = hs ++ [.reply h.tag c r w d]) (p : Plain hs) (k : s.calm = u.calm) :
    ∃ t, finish s = .next t ∧ Answered u t h c r w d := by
  obtain ⟨a, b⟩ := settle_last Config.handoffBound s hs _ e p (fun _ => rfl) (fun t => State.giveAnswer_calm t _ _ _ _ _)
  refine ⟨_, rfl, a.trans k, fun q => ?_⟩
  obtain ⟨t, _, _, f⟩ := b q
  rw [f]
  simp [act, State.giveAnswer]

end Sys2Proof.Machine
end

