-- ==== Sys2Proof/Laws/Frames.lean ====
section
/-! SUPPORT. What the kept and the calm part of a state say in the words of the statements. -/

set_option Elab.async false

namespace Sys2Proof.Machine

theorem SameRecords.of_kept {s t : State} (k : t.kept = s.kept) : SameRecords s t := by
  have hh := fun n => congrFun (congrArg Standing.holder k) n
  have hv := fun n => congrFun (congrArg Standing.valve k) n
  have hd := fun n => congrFun (congrArg Standing.district k) n
  have hb := fun n => congrFun (congrArg Standing.booster k) n
  have hm := fun n => congrFun (congrArg Standing.meter k) n
  have hl := fun l => congrFun (congrArg Standing.line k) l
  have hf := congrArg Standing.fill k
  have hy := congrArg Standing.yard k
  have hp := congrArg Standing.polls k
  have ho := congrArg Standing.pollHoles k
  have hw := congrArg Standing.draw k
  have hq := congrArg Standing.pool k
  simp only [State.kept, fillView, Fill.mk.injEq, drawView, poolView] at hf hy hp ho hw hq
  refine ⟨fun n => ?_, fun n => hv n, fun n => hd n, fun n => hb n, fun n => ?_, hy, fun l => ?_, hp, ho, hw, hq, ?_⟩
  · have e := hh n
    simp only [State.kept] at e
    cases ht : t.holder n <;> cases hs : s.holder n <;> simp_all [holderView]
  · have e := hm n
    simp only [State.kept, meterView, Prod.mk.injEq] at e
    simp [e]
  · have e := hl l
    simp only [State.kept, lineView, LineUnit.mk.injEq] at e
    simp [e]
  · simp [hf]

theorem SameMoment.of_kept {s t : State} (k : t.kept = s.kept) : SameMoment s t := by
  simp only [State.kept, Standing.mk.injEq] at k
  simp only [SameMoment]
  simp_all

theorem SameSamples.of_calm {s t : State} (k : t.calm = s.calm) : SameSamples s t := by
  have hh := fun n => congrFun (congrArg Calm.holder k) n
  refine ⟨congrArg Calm.dir k, congrArg Calm.meters k, fun n => ?_⟩
  have e := hh n
  simp only [State.calm] at e
  cases ht : t.holder n <;> cases hs : s.holder n <;> simp_all [holderCalm]

theorem SameRecords.of_calm {s t : State} (k : t.calm = s.calm) : SameRecords s t := SameRecords.of_kept (State.kept_of_calm k)

theorem SameMoment.of_calm {s t : State} (k : t.calm = s.calm) : SameMoment s t := SameMoment.of_kept (State.kept_of_calm k)

theorem SameRecords.trans {a b c : State} (h : SameRecords a b) (k : SameRecords b c) : SameRecords a c := by
  obtain ⟨h1, h2, h3, h4, h5, h6, h7, h8, h9, h10, h11, h12⟩ := h
  obtain ⟨k1, k2, k3, k4, k5, k6, k7, k8, k9, k10, k11, k12⟩ := k
  exact ⟨fun n => (k1 n).trans (h1 n), fun n => (k2 n).trans (h2 n), fun n => (k3 n).trans (h3 n), fun n => (k4 n).trans (h4 n),
    fun n => (k5 n).trans (h5 n), k6.trans h6, fun l => (k7 l).trans (h7 l), k8.trans h8, k9.trans h9, k10.trans h10, k11.trans h11,
    k12.trans h12⟩

theorem SameMoment.trans {a b c : State} (h : SameMoment a b) (k : SameMoment b c) : SameMoment a c := by
  simp only [SameMoment] at *
  simp_all

theorem SameSamples.trans {a b c : State} (h : SameSamples a b) (k : SameSamples b c) : SameSamples a c :=
  ⟨k.1.trans h.1, k.2.1.trans h.2.1, fun n => (k.2.2 n).trans (h.2.2 n)⟩

theorem SameRecords.refl (s : State) : SameRecords s s := .of_kept rfl
theorem SameMoment.refl (s : State) : SameMoment s s := .of_kept rfl
theorem SameSamples.refl (s : State) : SameSamples s s := .of_calm rfl

/-- Every command but POWER_ON_RESET is an effect on the state in which the errors of its step have been found. -/
theorem exec_afterReads (c : Instr) (h : ∀ r, c ≠ .powerOnReset r) : ∃ f, ∀ s, exec c s = afterReads f s := by
  cases c
  case powerOnReset r => exact absurd rfl (h r)
  all_goals exact ⟨_, fun s => by dsimp only [exec]; exact Eq.refl (afterReads _ s)⟩

end Sys2Proof.Machine
end

