-- ==== Sys2Proof/Laws/Packing.lean ====
section
/-! SUPPORT. The digits of a reading: they read back from the number, the number from its words, and READ BOOSTERS fits an ANSWER
(05 R116, 10 R192). -/

set_option Elab.async false

namespace Sys2Proof.Machine

/-! ### Digits -/

@[simp] theorem digitsSize_nil : digitsSize [] = 1 := rfl

@[simp] theorem digitsSize_cons (d : Digit) (ds : List Digit) : digitsSize (d :: ds) = d.1 * digitsSize ds := by
  rw [digitsSize, List.foldr_cons, ← digitsSize]

@[simp] theorem digitsSize_append (a b : List Digit) : digitsSize (a ++ b) = digitsSize a * digitsSize b := by
  induction a with
  | nil => simp
  | cons d a ih => simp [ih, Nat.mul_assoc]

@[simp] theorem posDigit_size (k : Nat) (n : Option Nat) : (posDigit k n).1 = k := by cases n <;> rfl

/-- The first digit is the remainder of the number. -/
theorem digitsValue_mod (d : Digit) (ds : List Digit) : digitsValue (d :: ds) % d.1 = d.2 % d.1 := by
  show (d.2 % d.1 + d.1 * digitsValue ds) % d.1 = d.2 % d.1
  rw [Nat.add_mul_mod_self_left, Nat.mod_mod]

/-- The digits behind the first are the quotient of the number. -/
theorem digitsValue_div (d : Digit) (ds : List Digit) (h : 0 < d.1) : digitsValue (d :: ds) / d.1 = digitsValue ds := by
  show (d.2 % d.1 + d.1 * digitsValue ds) / d.1 = digitsValue ds
  rw [Nat.add_mul_div_left _ _ h, Nat.div_eq_of_lt (Nat.mod_lt _ h), Nat.zero_add]

theorem digitsValue_lt (ds : List Digit) (h : ∀ d ∈ ds, 0 < d.1) : digitsValue ds < digitsSize ds := by
  induction ds with
  | nil => exact Nat.one_pos
  | cons d ds ih =>
    have i := ih fun e m => h e (List.mem_cons_of_mem _ m)
    have m := Nat.mod_lt d.2 (h d (by simp))
    have k := Nat.mul_le_mul_left d.1 (Nat.succ_le_of_lt i)
    show d.2 % d.1 + d.1 * digitsValue ds < d.1 * digitsSize ds
    simp only [Nat.mul_succ] at k
    omega

/-! ### Words -/

/-- The number that words hold, high word first. -/
def wordsValue (ws : List Nat) : Nat := ws.foldl (fun n w => n * 65536 + w) 0

/-- The high words of a number of at most `k` words, the low `j` of them left out. -/
theorem wordsValue_high (v k j : Nat) : wordsValue ((List.range k).map fun i => v / 65536 ^ (k + j - 1 - i) % 65536)
    = v / 65536 ^ j % 65536 ^ k := by
  induction k generalizing j with
  | zero => simp [wordsValue, Nat.mod_one]
  | succ k ih =>
    have i := ih (j + 1)
    have e : k + (j + 1) - 1 = k + 1 + j - 1 := by omega
    rw [e] at i
    rw [List.range_succ, List.map_append, wordsValue, List.foldl_append]
    rw [wordsValue] at i
    rw [i]
    have f : k + 1 + j - 1 - k = j := by omega
    simp only [List.map_cons, List.map_nil, List.foldl_cons, List.foldl_nil, f]
    rw [Nat.pow_succ 65536 j, ← Nat.div_div_eq_div_mul, Nat.pow_succ 65536 k, Nat.mul_comm (65536 ^ k), Nat.mod_mul, Nat.mul_comm,
      Nat.add_comm]

/-- The words hold the number whole. -/
theorem packDigits_value (ds : List Digit) (h : ∀ d ∈ ds, 0 < d.1) : wordsValue (packDigits ds) = digitsValue ds := by
  have w := wordsValue_high (digitsValue ds) ((digitsSize ds - 1).log2 / 16 + 1) 0
  simp only [Nat.add_zero, Nat.pow_zero, Nat.div_one] at w
  rw [packDigits, w]
  apply Nat.mod_eq_of_lt
  have a := digitsValue_lt ds h
  have b : digitsSize ds - 1 < 2 ^ ((digitsSize ds - 1).log2 + 1) := Nat.lt_log2_self
  have c : 2 ^ ((digitsSize ds - 1).log2 + 1) ≤ 65536 ^ ((digitsSize ds - 1).log2 / 16 + 1) := by
    rw [show (65536 : Nat) = 2 ^ 16 from rfl, ← Nat.pow_mul]
    exact Nat.pow_le_pow_right (by decide) (by omega)
  omega

/-- Digits of no more than 464 bits take no more than 29 words. -/
theorem packDigits_length (ds : List Digit) (h : digitsSize ds ≤ 2 ^ 464) : (packDigits ds).length ≤ 29 := by
  have l : (digitsSize ds - 1).log2 < 464 := by
    by_cases z : digitsSize ds - 1 = 0
    · rw [z]; decide
    · exact (Nat.log2_lt z).2 (by have := Nat.two_pow_pos 464; omega)
  simp only [packDigits, List.length_map, List.length_range]
  omega

/-! ### READ BOOSTERS -/

theorem orderStateDigits_size (holds : Bool) (st : SlotState) (o : ShownOrder) :
    digitsSize (orderStateDigits holds st o) ≤ if holds then 603 else 4608 := by
  unfold orderStateDigits
  cases st <;> cases holds <;> cases o.followUp <;> cases o.checkPending <;> simp

theorem boosterSlotDigits_size (holds : Bool) (x : ShownSlot) :
    digitsSize (boosterSlotDigits holds x) ≤ 4 * (8 * 9 * 256 * 4294967296) * if holds then 603 else 4608 := by
  unfold boosterSlotDigits
  cases x.order with
  | none => cases holds <;> simp
  | some o =>
    have k := orderStateDigits_size holds x.state o
    simp only [digitsSize_append, digitsSize_cons, digitsSize_nil]
    omega

/-- The most values that one booster's digits have. -/
def boosterBound (holds : Bool) : Nat :=
  2 * (199 * 2 * 251 * 571 * 6 * (if holds then 9 * 3602 * 4 else 1) * (8 * 131073 * 602)
    * (4 * (8 * 9 * 256 * 4294967296) * if holds then 603 else 4608))

theorem boosterDigits_size (x : ShownBooster) : 2 * digitsSize (boosterDigits x) ≤ boosterBound x.holds := by
  have s := boosterSlotDigits_size x.holds x.slot
  simp only [boosterDigits, holdingDigits, boosterBound]
  cases e : x.holds <;> simp only [e, digitsSize_append, digitsSize_cons, digitsSize_nil, posDigit_size, if_true, if_false,
    Bool.false_eq_true] at s ⊢ <;> omega

/-- A booster with a record that holds a district. -/
def shownHolds : Option ShownBooster → Bool
  | some x => x.holds
  | none => false

theorem shownDigits_size (x : Option ShownBooster) : digitsSize (shownDigits x) ≤ boosterBound (shownHolds x) := by
  cases x with
  | none => decide +kernel
  | some x => exact boosterDigits_size x

/-- The number of orders of `n` things. -/
def ordersOf : Nat → Nat
  | 0 => 1
  | n + 1 => (n + 1) * ordersOf n

theorem ordersOf_pos (n : Nat) : 0 < ordersOf n := by
  induction n with
  | zero => exact Nat.one_pos
  | succ n ih => exact Nat.mul_pos (Nat.succ_pos n) ih

theorem queueDigits_size (n : Nat) (rest q : List Nat) : digitsSize (queueDigits n rest q) ≤ ordersOf n := by
  induction q generalizing n rest with
  | nil => exact ordersOf_pos _
  | cons d q ih =>
    cases n with
    | zero => simp [queueDigits]
    | succ k => exact Nat.mul_le_mul_left _ (ih k (rest.erase d))

theorem holding_length (bs : List ShownBooster) :
    (holding bs).length = ([1, 2, 3].filter fun n => shownHolds (bs.find? (·.number == n))).length := by
  unfold holding
  generalize [1, 2, 3] = ns
  induction ns with
  | nil => rfl
  | cons n ns ih =>
    cases e : bs.find? (·.number == n) with
    | none => simpa [List.filterMap_cons, List.filter_cons, e, shownHolds] using ih
    | some x => cases k : x.holds <;> simpa [List.filterMap_cons, List.filter_cons, e, shownHolds, k] using ih

theorem poolQueueDigits_size (held : List ShownBooster) (queue : List Nat) :
    digitsSize (poolQueueDigits held queue) ≤ (9 - held.length) * ordersOf (8 - held.length) := by
  rw [poolQueueDigits, digitsSize_cons]
  exact Nat.mul_le_mul_left _ (queueDigits_size _ _ _)

/-- Three boosters and a queue that names none of the districts they hold, with the digits behind them. -/
theorem bounds_fit (a b c : Bool) :
    let h := ([a, b, c].filter id).length
    2 * (boosterBound a * (boosterBound b * boosterBound c)) * ((9 - h) * ordersOf (8 - h)) * (1919809 * 5 * 7202) * 5 ^ 8 ≤ 2 ^ 464 := by
  cases a <;> cases b <;> cases c <;> decide +kernel

/-- READ BOOSTERS gives no more than the 29 words of an ANSWER, whatever the state. -/
theorem poolDigits_fit (p : Pool) (bs : List ShownBooster) (r : Option Nat) (shed : List (Nat × Nat)) :
    (packDigits (poolDigits p bs r shed)).length ≤ 29 := by
  apply packDigits_length
  have shown (n : Nat) := shownDigits_size (bs.find? (·.number == n))
  have q := poolQueueDigits_size (holding bs) p.queue
  have fit := bounds_fit (shownHolds (bs.find? (·.number == 1))) (shownHolds (bs.find? (·.number == 2)))
    (shownHolds (bs.find? (·.number == 3)))
  have e : ([shownHolds (bs.find? (·.number == 1)), shownHolds (bs.find? (·.number == 2)), shownHolds (bs.find? (·.number == 3))].filter
      id).length = (holding bs).length := by
    rw [holding_length]
    exact (congrArg List.length (List.filter_map (f := fun n => shownHolds (bs.find? (·.number == n))) (p := id) (l := [1, 2, 3]))).trans
      (List.length_map _)
  simp only [e] at fit
  refine Nat.le_trans (Nat.le_trans (Nat.le_of_eq ?_) (Nat.mul_le_mul_right _ (Nat.mul_le_mul_right _ (Nat.mul_le_mul
    (Nat.mul_le_mul_left 2 (Nat.mul_le_mul (shown 1) (Nat.mul_le_mul (shown 2) (shown 3)))) q)))) fit
  simp only [poolDigits, List.flatMap_cons, List.flatMap_nil, List.append_nil, digitsSize_append, digitsSize_cons, digitsSize_nil,
    posDigit_size, List.map_cons, List.map_nil]
  all_goals rfl

theorem queueDigits_pos (n : Nat) (rest q : List Nat) (h : q.length ≤ n) : ∀ d ∈ queueDigits n rest q, 0 < d.1 := by
  induction q generalizing n rest with
  | nil => simp [queueDigits]
  | cons d q ih =>
    rw [List.length_cons] at h
    simp only [queueDigits, List.mem_cons, forall_eq_or_imp]
    exact ⟨by omega, ih (n - 1) (rest.erase d) (by omega)⟩

theorem orderStateDigits_pos (holds : Bool) (st : SlotState) (o : ShownOrder) : ∀ d ∈ orderStateDigits holds st o, 0 < d.1 := by
  unfold orderStateDigits
  cases st <;> cases holds <;> cases o.followUp <;> cases o.checkPending <;> simp

theorem boosterSlotDigits_pos (holds : Bool) (x : ShownSlot) : ∀ d ∈ boosterSlotDigits holds x, 0 < d.1 := by
  unfold boosterSlotDigits
  cases x.order with
  | none => simp
  | some o => simpa using orderStateDigits_pos holds x.state o

theorem shownDigits_pos (x : Option ShownBooster) : ∀ d ∈ shownDigits x, 0 < d.1 := by
  cases x with
  | none => simp [shownDigits]
  | some x =>
    simp only [shownDigits, boosterDigits, holdingDigits, List.forall_mem_append, List.forall_mem_cons, posDigit_size]
    refine ⟨by simp, ⟨⟨by simp, ?_⟩, by simp⟩, boosterSlotDigits_pos x.holds x.slot⟩
    cases x.holds <;> simp

/-- The words of READ BOOSTERS hold all its digits, while the queue is no longer than the districts that no booster holds. -/
theorem poolDigits_read (p : Pool) (bs : List ShownBooster) (r : Option Nat) (shed : List (Nat × Nat))
    (h : p.queue.length ≤ 8 - (holding bs).length) :
    wordsValue (packDigits (poolDigits p bs r shed)) = digitsValue (poolDigits p bs r shed) := by
  apply packDigits_value
  have three := Nat.le_trans (Nat.le_of_eq (holding_length bs)) (List.length_filter_le _ _)
  simp only [poolDigits, poolQueueDigits, List.forall_mem_append, List.forall_mem_cons, List.forall_mem_flatMap, List.forall_mem_map,
    posDigit_size]
  simp only [List.length_cons, List.length_nil] at three
  exact ⟨⟨⟨⟨by decide, shownDigits_pos _, shownDigits_pos _, shownDigits_pos _, by simp⟩, by omega, queueDigits_pos _ _ _ h⟩, by simp⟩,
    by simp⟩

end Sys2Proof.Machine
end

