-- ==== Sys2Proof/Tests/Slice0.lean ====
section
/-! SUPPORT. Tests: ill-formed commands refused, small steps, and for each statement states that meet its hypotheses clause by
clause, with what the step gives there. -/

set_option Elab.async false

namespace Sys2Proof.Tests

open Sys2Proof Sys2Proof.Machine

/-! ### Small states -/

def hd : AskHead := ⟨5, false⟩

def holderRec : HolderRec :=
  { inService := true, construction := .column, fastRise := 0, lifts := 2, lift1 := ⟨9000, 220, 60⟩, lift2 := ⟨9000, 240, 45⟩,
    lift3 := ⟨0, 0, 0⟩, lift4 := ⟨0, 0, 0⟩, margin := 100, reserve := 2000, highWarning := 16000, topLimit := 17000, topHyst := 300,
    cupBand := 150, blindGrace := 10, gauge := 11, inlet := 1, outlet := 2 }

def districtRec : DistrictRec :=
  { inService := true, auto := true, governor := 101, recorder := 102, meter := 103, headGain := 60, floor := 80,
    profA := [⟨360, 150⟩, ⟨990, 180⟩], profB := [⟨0, 150⟩], profFlag := some 0, deadBand := 8, settle := 120, rank := 3, boost := true }

def boosterRec : BoosterRec := ⟨151, true, 80, 120⟩

def pollRec (st : Nat) : PollRec := ⟨st, true, 0, 3, 0x0003#16, false, 1⟩

def bound (b : Binding) : DirEntry := freshEntry (some .f1) .bound (some b) true 0#12

/-- Holder 1 with its gauge and valves, district 1, booster 1; every station bound, on F1 and polled. -/
def plant : State := { State.reset with
  yardPresent := true
  holders := [(1, ⟨holderRec, false, HolderRt.initial holderRec⟩)]
  valves := [(1, valveInitial ⟨1, 51, 120⟩ false), (2, valveInitial ⟨2, 52, 120⟩ false)]
  districts := [(1, ⟨districtRec, false, DistrictRt.initial districtRec false, Slot.free⟩)]
  boosters := [(1, Booster.initial boosterRec false)]
  meters := [(1, { Meter.initial with station := some 103 })]
  acct := ⟨{ Account.initial with parts := [(1, Part.zero)] }, [], false⟩
  dir := [(11, bound (.gauge 1)), (51, bound (.valve 1)), (52, bound (.valve 2)), (101, bound (.governor 1)), (102, bound (.recorder 1)),
    (103, bound (.meter 1)), (151, bound (.booster 1))]
  polls := [11, 51, 52, 101, 102, 103, 151].zipIdx.map fun p => (p.2 + 1, pollInitial (pollRec p.1) false) }

def inRun : State := { plant with runState := .run }

/-- Every field line sends, so that nothing is selected. -/
def busyLines (s : State) : State :=
  { s with lines := ⟨{ s.lines.f1 with mode := .sending }, { s.lines.f2 with mode := .sending }, { s.lines.f3 with mode := .sending }⟩ }

def withTx (n : Nat) (s : State) : State :=
  { s with desk := { s.desk with tx := List.replicate n (.notice 0 ⟨.noDraw, .none, .absent, 0, 0, true⟩) } }

def aNotice : Notice := ⟨.noDraw, .none, .absent, 0, 0, true⟩

def withNotices (n : Nat) (s : State) : State := { s with desk := { s.desk with notices := List.replicate n aNotice } }

def holderIs (f : HolderRt → HolderRt) (s : State) : State :=
  { s with holders := [(1, ⟨holderRec, false, f (HolderRt.initial holderRec)⟩)] }

/-- The command ends in this state. -/
def gives (o : Host.Outcome State Fault Refusal) (t : State) : Bool :=
  match o with
  | .next u => decide (u = t)
  | _ => false

/-- The state a command ends in; the state before where it ends in none. -/
def after (c : Instr) (s : State) : State :=
  match exec c s with
  | .next t => t
  | _ => s

def good (t : Telegram) : Reception := ⟨telegramBytes t, false, false, false⟩

def fieldTel (src : Nat) (k : Kind) (tag : Nat) (body : List Nat) : Telegram :=
  ⟨0, src, k, false, false, tag, none, body.map wordOf⟩

def deskTel (dest : Nat) (k : Kind) (body : List Nat) : Telegram :=
  ⟨dest, 0, k, true, false, 7, some (if k = .order then 8#8 else 0#8, 0#8), body.map wordOf⟩

def noise : Reception := ⟨[1#8, 2#8], true, false, false⟩

/-- A desk telegram of a code, tag 9. -/
def deskOrder (dest code : Nat) : DeskTelegram := ⟨true, dest, true, 9, false, false, false, false, [wordOf code]⟩
def deskPoll (dest : Nat) : DeskTelegram := ⟨false, dest, true, 9, false, false, false, false, []⟩

def words (ws : List Nat) : AnswerData := .words ws

/-! ### Well-formed commands -/

theorem test_wf_refuses_a_tag_over_a_byte : AskHead.wf ⟨255, false⟩ = true ∧ AskHead.wf ⟨256, false⟩ = false := by decide +kernel

theorem test_wf_refuses_a_long_body :
    bodyOk (List.replicate 32 0#16) = true ∧ bodyOk (List.replicate 33 0#16) = false
      ∧ Instr.wf (.askMalformed hd (List.replicate 33 0#16)) = false ∧ Instr.wf (.askRepeat ⟨5, true⟩ (List.replicate 33 0#16)) = false
      ∧ Instr.wf (.deskGroupTelegram { deskPoll 255 with body := List.replicate 33 0#16 }) = false
      ∧ Instr.wf (.deskPoll { deskPoll 1 with body := List.replicate 33 0#16 }) = false := by decide +kernel

theorem test_wf_refuses_a_lift_over_a_word : Lift.wf ⟨65535, 65535, 65535⟩ = true
    ∧ [(⟨65536, 0, 0⟩ : Lift), ⟨0, 65536, 0⟩, ⟨0, 0, 65536⟩].all (fun l => !l.wf) = true := by decide +kernel

theorem test_wf_refuses_a_holder_field_over_a_word : holderRec.wf = true
    ∧ ([{ holderRec with lift1 := ⟨65536, 0, 0⟩ }, { holderRec with lift2 := ⟨65536, 0, 0⟩ }, { holderRec with lift3 := ⟨65536, 0, 0⟩ },
      { holderRec with lift4 := ⟨65536, 0, 0⟩ }, { holderRec with fastRise := 65536 }, { holderRec with lifts := 65536 },
      { holderRec with margin := 65536 }, { holderRec with reserve := 65536 }, { holderRec with highWarning := 65536 },
      { holderRec with topLimit := 65536 }, { holderRec with topHyst := 65536 }, { holderRec with cupBand := 65536 },
      { holderRec with blindGrace := 65536 }, { holderRec with gauge := 65536 }, { holderRec with inlet := 65536 },
      { holderRec with outlet := 65536 }] : List HolderRec).all (fun r => !r.wf && !Instr.wf (.writeHolderRecord hd 1 r)) = true := by
  decide +kernel

theorem test_wf_refuses_a_valve_or_booster_field_over_a_word :
    ([⟨65536, 1, 5⟩, ⟨1, 65536, 5⟩, ⟨1, 1, 65536⟩] : List ValveRec).all (fun r => !r.wf && !Instr.wf (.writeValveRecord hd 1 r)) = true
      ∧ ([⟨65536, true, 80, 120⟩, ⟨1, true, 65536, 120⟩, ⟨1, true, 80, 65536⟩] : List BoosterRec).all
        (fun r => !r.wf && !Instr.wf (.writeBoosterRecord hd 1 r)) = true := by decide +kernel

theorem test_wf_refuses_a_district_field_that_does_not_fit : districtRec.wf = true
    ∧ ([{ districtRec with governor := 65536 }, { districtRec with recorder := 65536 }, { districtRec with meter := 65536 },
      { districtRec with floor := 65536 }, { districtRec with deadBand := 65536 }, { districtRec with settle := 65536 },
      { districtRec with rank := 65536 }, { districtRec with headGain := 32768 }, { districtRec with headGain := -32769 },
      { districtRec with profA := List.replicate 7 ⟨0, 0⟩ }, { districtRec with profB := List.replicate 7 ⟨0, 0⟩ },
      { districtRec with profA := [⟨65536, 0⟩] }, { districtRec with profB := [⟨0, 65536⟩] },
      { districtRec with profFlag := some 65535 }] : List DistrictRec).all
      (fun r => !r.wf && !Instr.wf (.writeDistrictRecord hd 1 r)) = true := by decide +kernel

theorem test_wf_refuses_a_yard_field_that_does_not_fit : YardRec.default.wf = true
    ∧ ([{ YardRec.default with park := 65536 }, { YardRec.default with turnPeriod := 65536 }, { YardRec.default with margin := 65536 },
      { YardRec.default with recovery := 65536 }, { YardRec.default with cut1 := 65536 }, { YardRec.default with cut2 := 65536 },
      { YardRec.default with cut3 := 65536 }, { YardRec.default with releaseHold := 65536 }, { YardRec.default with interval := 65536 },
      { YardRec.default with cyclePeriod := 65536 }, { YardRec.default with lostThreshold := 65536 },
      { YardRec.default with mark1 := 4294967296 }, { YardRec.default with mark2 := 4294967296 },
      { YardRec.default with mark3 := 4294967296 }, { YardRec.default with hyst := 4294967296 },
      { YardRec.default with tolerance := 4294967296 }, { YardRec.default with makeMeter := some 0 },
      { YardRec.default with makeMeter := some 65536 }, { YardRec.default with aging := some 0 }] : List YardRec).all
      (fun r => !r.wf && !Instr.wf (.writeYardRecord hd r)) = true := by decide +kernel

theorem test_wf_refuses_line_poll_directory_and_draw_fields :
    ([⟨65536, 1, 1, 1⟩, ⟨9600, 65536, 1, 1⟩, ⟨9600, 1, 65536, 1⟩, ⟨9600, 1, 1, 65536⟩] : List LineSet).all
        (fun r => !r.wf && !Instr.wf (.writeLineTable hd 1 r)) = true
      ∧ ([{ pollRec 1 with station := 65536 }, { pollRec 1 with retries := 65536 }, { pollRec 1 with cls := 65536 },
        { pollRec 1 with nth := 65536 }] : List PollRec).all (fun r => !r.wf && !Instr.wf (.writePollPosition hd 1 (some r))) = true
      ∧ Instr.wf (.writePollPosition hd 1 none) = true ∧ Instr.wf (.writeDirectoryEntry hd 1 ⟨65536, none, 0#12⟩) = false
      ∧ ([⟨[1, 2, 3, 4, 1], 1⟩, ⟨[65536], 1⟩, ⟨[], 65536⟩] : List DrawRec).all
        (fun r => !r.wf && !Instr.wf (.writeDrawRecord hd r)) = true := by decide +kernel

theorem test_wf_refuses_findings_of_no_record :
    ([.holder 5, .holder 0, .valve 9, .district 9, .booster 4, .meter 9, .poll 49, .directory 200, .turnWork 24, .turnPend 24] :
        List RecordRef).all (fun r => !r.wf && !Instr.wf (.deskBufferServe [(r, .single)])) = true
      ∧ Instr.wf (.tableCheckDone [(.yard, .single), (.yard, .double)]) = false
      ∧ Instr.wf (.readEntry hd 1 1 0 [(.holder 5, .single)]) = false ∧ Instr.wf (.storeTables hd 0#16 [(.holder 5, .single)]) = false
      ∧ Instr.wf (.tableCheckDone [(.yard, .single)]) = true := by decide +kernel

theorem test_wf_refuses_receptions_of_another_class :
    Instr.wf (.lineError .d (good (deskTel 1 .poll []))) = false ∧ Instr.wf (.lineError (.field .f1) (good (fieldTel 11 .report 0 [0]))) = false
      ∧ Instr.wf (.deskTelegramReceived noise) = false ∧ Instr.wf (.fieldReplyTaken .f1 noise) = false
      ∧ Instr.wf (.fieldAlertReceived .f1 noise) = false ∧ Instr.wf (.fieldStray .f1 noise) = false
      ∧ Instr.wf (.replyNotOfRightForm .f1 noise) = false ∧ Instr.wf (.lineError .d noise) = true
      ∧ Instr.wf (.deskTelegramReceived (good (deskTel 1 .poll []))) = true := by decide +kernel

theorem test_wf_refuses_operands_that_do_not_fit :
    ([.powerOnReset ⟨true, [8]⟩, .askMalformed hd [3#16], .askRepeat ⟨5, false⟩ [3#16], .readEntry hd 65536 1 0 [], .readEntry hd 1 65536 0 [],
      .readEntry hd 1 1 65536 [], .writeEntryPart hd 65536 1 0 false [], .writeEntryPart hd 1 65536 0 false [],
      .writeEntryPart hd 1 1 256 false [], .writeEntryPart hd 1 1 0 false (List.replicate 29 0#16)] : List Instr).all (fun c => !c.wf) = true
    ∧ ([.writeHolderRecord hd 65536 holderRec, .writeValveRecord hd 65536 ⟨1, 1, 5⟩, .writeDistrictRecord hd 65536 districtRec,
      .writeBoosterRecord hd 65536 boosterRec, .writeMeterEntry hd 65536 1 1, .writeMeterEntry hd 1 65536 1, .writeMeterEntry hd 1 1 65536,
      .writeLineTable hd 65536 LineSet.default, .writePollPosition hd 65536 none, .writeDirectoryEntry hd 65536 ⟨1, none, 0#12⟩] :
        List Instr).all (fun c => !c.wf) = true
    ∧ ([.setClock hd 65536 0, .setClock hd 0 4294967296, .readNotices hd 65536, .delete hd 65536, .readHolder hd 65536, .clearFault hd 65536,
      .readValve hd 65536, .setDrawMode hd 65536, .readDistrict hd 65536, .setPoolMode hd 65536, .freeBooster hd 65536,
      .removeRecord hd 65536 1, .removeRecord hd 1 65536, .readCounts hd 65536 0, .readCounts hd 0 65536, .watch hd 65536 0,
      .watch hd 1 65536, .bar hd 65536 0, .unbar hd 1 65536, .setDistrictMode hd 65536 0, .readAccount hd 0 65536] :
        List Instr).all (fun c => !c.wf) = true
    ∧ ([.search hd 65536 0 0 0, .search hd 1 65536 0 0, .search hd 1 0 65536 0, .search hd 1 0 0 65536, .loadRota hd [1],
      .loadRota hd (List.replicate 24 65536), .releaseAccount hd 4294967296, .deskPoll (deskOrder 1 1), .deskPoll (deskPoll 0),
      .deskPoll (deskPoll 200), .deskPoll { deskPoll 1 with tag := 256 }, .deskOrderBound (deskPoll 1), .deskOrderUnbound (deskPoll 1),
      .deskGroupTelegram (deskPoll 212), .deskGroupTelegram (deskPoll 199), .deskGroupTelegram { deskPoll 255 with tag := 256 }] :
        List Instr).all (fun c => !c.wf) = true
    ∧ ([.parkTimerExpiry 5, .blindGraceExpiry 0, .travelAllowanceExpiry 9, .settleExpiry 0, .boosterDeadlineExpiry 4, .releaseHoldExpiry 0,
      .undecidedDeadlineExpiry 4] : List Instr).all (fun c => !c.wf) = true := by decide +kernel

theorem test_wf_refuses_a_bad_head_of_every_request :
    (([.readEntry, fun h a b _ _ => .removeRecord h a b] : List (AskHead → Nat → Nat → Nat → Findings → Instr)).all
      fun f => !(f ⟨256, false⟩ 1 1 0 []).wf) = true
    ∧ ([.run ⟨256, false⟩, .hold ⟨256, false⟩, .standby ⟨256, false⟩, .restart ⟨256, false⟩, .setClock ⟨256, false⟩ 0 0,
      .setFlags ⟨256, false⟩ 0#16, .clear ⟨256, false⟩, .tableCheck ⟨256, false⟩, .startRota ⟨256, false⟩, .stopRota ⟨256, false⟩,
      .readBoosters ⟨256, false⟩, .search ⟨256, false⟩ 1 0 0 0, .storeTables ⟨256, false⟩ 0#16 [], .loadRota ⟨256, false⟩ (List.replicate 24 0),
      .releaseAccount ⟨256, false⟩ 0] : List Instr).all (fun c => !c.wf) = true := by decide +kernel

theorem test_wf_of_telegrams_and_requests :
    (fieldTel 11 .report 0 [0]).wf false = true ∧ (deskTel 1 .order [1]).wf true = true
      ∧ ([{ fieldTel 11 .report 0 [] with dest := 212 }, { fieldTel 11 .report 0 [] with src := 254 }, { fieldTel 11 .report 256 [] with tag := 256 },
        { fieldTel 11 .report 0 [] with body := List.replicate 33 0#16 }, { fieldTel 11 .report 0 [] with env := some (0#8, 0#8) }] :
          List Telegram).all (fun t => !t.wf false) = true
      ∧ ({ deskTel 1 .order [] with env := some (0#8, 0#8) } : Telegram).wf true = false
      ∧ Request.wf (.loadRota [1]) = false ∧ Request.wf (.releaseAccount 4294967296) = false ∧ Request.wf (.readHolder 65536) = false
      ∧ Request.wf (.writeEntry 1 1 256 false false []) = false ∧ Request.wf (.setClock 0 4294967296) = false
      ∧ Request.wf (.readEntry 65536 1 1) = false ∧ Request.wf (.search 1 65536 0 0) = false ∧ Request.wf (.bar 1 65536) = false := by
  decide +kernel

/-! ### Steps and invariants -/

/-- The words are read as this. -/
def okIs {α ε : Type} [DecidableEq α] (o : Except ε α) (a : α) : Bool :=
  match o with
  | .ok b => decide (b = a)
  | .error _ => false

/-- The words are found wrong here. -/
def badAt {α ε : Type} [DecidableEq ε] (o : Except ε α) (a : ε) : Bool :=
  match o with
  | .ok _ => false
  | .error b => decide (b = a)

def waiting (c : Instr) (s : State) : State := { s with pending := [c] }

theorem test_step_runs_the_front_and_idles :
    gives (step (waiting (.run hd) plant)) (after (.run hd) plant) = true ∧ gives (step plant) plant = true
      ∧ (waiting (.run hd) plant).pending = .run hd :: [] ∧ plant.pending = [] := by decide +kernel

def meets (e : Met) (s : State) : State := s.meeting [e]

/-- The state a step ends in; the state before where it ends in none. -/
def stepped (s : State) : State :=
  match step s with
  | .next t => t
  | _ => s

theorem test_a_step_with_nothing_waiting_acts_on_a_bit_error :
    let s := meets ⟨.meter 3, .double, false⟩ plant
    s.pending = [] ∧ s.mem.met = [⟨.meter 3, .double, false⟩] ∧ ((stepped s).meter 3).damaged = true ∧ (stepped s).mem.met = []
      ∧ (stepped (meets ⟨.holder 1, .single, false⟩ plant)).mem.tracking = 1 := by decide +kernel

/-- The reads of a command meet the errors of its own step: the reader has the corrected or the fallback values. -/
theorem test_a_command_meets_the_errors_of_its_step :
    let yard := meets ⟨.yard, .double, false⟩ plant
    let polls := meets ⟨.poll 1, .double, false⟩ (plant.modMem fun m => { m with sweep := true })
    let sweep := meets ⟨.meter 3, .double, true⟩ (plant.modMem fun m => { m with sweep := true })
    let kinds (s : State) := s.desk.notices.map (·.kind)
    yard.errorsRead.yardDamaged = true ∧ yard.errorsRead.mem.met = [] ∧ plant.errorsRead = plant
      ∧ gives (exec (.run hd) yard) (after (.run hd) yard.errorsRead) = true
      ∧ (after (.run hd) plant).runState = .run ∧ (after (.run hd) yard).runState = .standby ∧ kinds (after (.run hd) yard) = [.recordDamaged]
      ∧ ((after .cycleExpiry { plant with elapsed := 10 }).poll 1).bind (·.lastCycle) = some 1
      ∧ ((after .cycleExpiry { polls with elapsed := 10 }).poll 1).bind (·.lastCycle) = none
      ∧ kinds (after (.tableCheckDone []) sweep) = [.recordDamaged, .checkDone]
      ∧ (after (.tableCheckDone []) sweep).desk.notices.map (·.detail) = [.pair 5 3, .pair 0 1]
      ∧ kinds (after (.clear hd) sweep) = [.recordDamaged, .checkAborted] ∧ kinds (after (.restart hd) sweep) = [.recordDamaged, .checkAborted]
      ∧ ((after (.clear hd) sweep).meter 3).damaged = true := by decide +kernel

theorem test_step_keeps_the_clock_at_midnight :
    let s := waiting .yardClockSecond { plant with clock := ⟨65535, 86399, true⟩ }
    ClockSound s ∧ gives (step s) (after .yardClockSecond { s with pending := [] }) = true
      ∧ (after .yardClockSecond { s with pending := [] }).clock = ⟨0, 0, true⟩ := by decide +kernel

theorem test_step_keeps_full_desk_queues :
    let s := waiting .yardClockSecond { withTx 24 (withNotices 32 plant) with free := 0 }
    let t := { s with desk := { s.desk with rx := List.replicate 8 (deskTel 1 .poll []), noticeTag := 255 } }
    DeskSound t.desk ∧ gives (step t) (after .yardClockSecond { t with pending := [] }) = true
      ∧ DeskSound (after (.deskTelegramReceived (good (deskTel 1 .poll []))) t).desk
      ∧ (t.notify .noDraw .none .absent).desk.notices.length = 32 ∧ (t.notify .noDraw .none .absent).desk.noticeTag = 0 := by
  decide +kernel

theorem test_step_keeps_the_flags_tied :
    let s := waiting .yardClockSecond { plant with flags := 0xC0#8, pool := { plant.pool with level := 1 }, fill := { plant.fill with unplaced := true } }
    FlagsSound s ∧ gives (step s) (after .yardClockSecond { s with pending := [] }) = true ∧ FlagsSound State.reset := by decide +kernel

theorem test_step_keeps_the_tables :
    let s := waiting (.storeTables hd 0#16 []) plant
    TablesSound s ∧ StoreSound s.mem ∧ TablesSound (after (.storeTables hd 0#16 []) plant)
      ∧ StoreSound (after (.storeTables hd 0#16 []) plant).mem
      ∧ gives (step s) (after (.storeTables hd 0#16 []) plant) = true := by decide +kernel

def full : State := { plant with
  acct := { plant.acct with ring := List.replicate 128 (State.reset.recordOf none none) }
  relay := { plant.relay with allowance := 4 }, mem := { plant.mem with tracking := 255 } }

theorem test_step_keeps_the_counts : CountsSound full ∧ CountsSound (after .yardClockSecond full) := by decide +kernel

/-! ### Words -/

theorem test_telegrams_that_read_back :
    let t := { deskTel 199 .order [] with body := List.replicate 32 0xFFFF#16, tag := 255, rept := true }
    let u := fieldTel 199 .orderAck 255 (List.replicate 32 1)
    t.wf true = true ∧ u.wf false = true ∧ parseTelegram true (telegramBytes (deskTel 51 .order [1])) = some (deskTel 51 .order [1])
      ∧ parseTelegram false (telegramBytes (fieldTel 11 .report 3 [0])) = some (fieldTel 11 .report 3 [0]) := by
  decide +kernel

theorem test_requests_that_read_back :
    ([.readEntry 65535 0 65535, .writeEntry 2 1 255 true true (List.replicate 28 1#16), .setClock 65535 4294967295, .loadRota (List.replicate 24 65535),
      .releaseAccount 4294967295, .search 1 0 0 0, .run, .setFlags 0xFFFF#16] : List Request).all
      (fun q => q.wf && okIs (decodeAsk (encodeAsk q)) q) = true := by decide +kernel

theorem test_entries_that_read_back :
    holderRec.wf = true ∧ (⟨65535, 0, 900⟩ : ValveRec).wf = true ∧ districtRec.wf = true ∧ { districtRec with headGain := -32768 }.wf = true
      ∧ boosterRec.wf = true ∧ { YardRec.default with makeMeter := some 65535, mark3 := 4294967295, aging := none }.wf = true
      ∧ LineSet.default.wf = true ∧ (pollRec 199).wf = true ∧ (⟨199, some .f3, 0xFFF#12⟩ : DirWrite).wf = true
      ∧ (⟨[4, 3, 2, 1], 4⟩ : DrawRec).wf = true ∧ okIs (decodeHolder (encodeHolder holderRec)) holderRec = true
      ∧ okIs (decodeDistrict (encodeDistrict { districtRec with headGain := -32768 })) { districtRec with headGain := -32768 } = true := by
  decide +kernel

theorem test_check_word_of_the_nine_digits :
    crc16 ([0x31#8, 0x32#8, 0x33#8, 0x34#8, 0x35#8, 0x36#8, 0x37#8, 0x38#8, 0x39#8]) = 0x29B1#16
      ∧ crcBit 0x8000#16 = 0x1021#16 ∧ crcBit 0x4000#16 = 0x8000#16 := by decide +kernel

/-! ### The desk queues -/

theorem test_answers_and_relayed_telegrams_find_room_or_are_dropped :
    (withTx 23 plant).desk.tx.length < 24 ∧ 24 ≤ (withTx 24 plant).desk.tx.length ∧ (withTx 19 plant).desk.tx.length < 20
      ∧ 20 ≤ (withTx 20 plant).desk.tx.length
      ∧ ((withTx 23 plant).giveAnswer 5 3 .done none (words [1])).desk.tx.length = 24
      ∧ ((withTx 24 plant).giveAnswer 5 3 .done none (words [1])).desk.counters.deskDrops = 1
      ∧ (withTx 22 plant).desk.tx.length < 23 ∧ 23 ≤ (withTx 23 plant).desk.tx.length
      ∧ ((withTx 22 plant).answerOrder ⟨1, false, 51, [1#16]⟩ .superseded none true).desk.tx.length = 23
      ∧ ((withTx 23 plant).answerOrder ⟨1, false, 51, [1#16]⟩ .superseded none true).desk.tx.length = 23
      ∧ ((withTx 20 plant).relayOut .alert .f1 (fieldTel 11 .alert 0 [])).desk.tx.length = 20
      ∧ ((withTx 19 plant).relayOut .alert .f1 (fieldTel 11 .alert 0 [])).desk.tx.length = 20 := by decide +kernel

theorem test_notices_are_queued_and_sent :
    ((withNotices 32 (withTx 20 plant)).notify .holderState (.holder 1) .absent).desk.lostNotices = 1
      ∧ ((withNotices 31 (withTx 19 plant)).notify .holderState (.holder 1) .absent).desk.tx.length = 20 := by decide +kernel

def fullRx (s : State) : State := { s with desk := { s.desk with rx := List.replicate 8 (deskTel 1 .poll []) } }

theorem test_what_the_desk_is_sent :
    (after .deskTransmitDone (withTx 2 plant)).desk.out = some ⟨0, 0, .notice, false, false, 0, some (0#8, 6#8), (noticeWords aNotice).map wordOf⟩
      ∧ deskTelegram (.answer 5 .bad 3 0#16 none (words [2])) = ⟨0, 0, .answer, false, false, 5, some (0#8, 5#8), [5, 3, 0, 2].map wordOf⟩
      ∧ (deskTelegram (.relayed .alert .f2 (fieldTel 11 .alert 0 [0]))).env = some (2#8, byteOf (relayCode .alert)) := by decide +kernel

theorem test_desk_line_receives :
    Settled plant ∧ receive true (good (deskTel 1 .poll [])) = some (deskTel 1 .poll []) ∧ receive true noise = none
      ∧ (after (.deskTelegramReceived (good (deskTel 1 .poll []))) plant).desk.rx = [deskTel 1 .poll []]
      ∧ (after (.deskTelegramReceived (good (deskTel 1 .poll []))) (fullRx plant)).desk.overrun = true
      ∧ (after (.lineError .d noise) plant).desk.counters.lineErrors = 1
      ∧ (after .deskTransmitDone (withTx 2 plant)).desk.tx.length = 1 ∧ gives (exec .deskTransmitDone plant) plant = true := by decide +kernel

theorem test_field_lines_listen :
    Settled (busyLines plant) ∧ receive false noise = none ∧ ((busyLines plant).line .f2).mode = .sending ∧ (plant.line .f2).mode = .idle
      ∧ gives (exec (.lineError (.field .f2) noise) (busyLines plant)) (busyLines plant) = true
      ∧ ((after (.lineError (.field .f2) noise) plant).line .f2).counters.lineErrors = 1
      ∧ ((after (.telegramBegins (.field .f3)) plant).line .f3).receiving = true := by decide +kernel

def heads (t : Telegram) : State := { plant with desk := { plant.desk with rx := [t, deskTel 9 .poll []] } }

theorem test_desk_head_goes_to_its_party :
    Serves (heads (deskTel 1 .poll [])) ∧ Serves (withTx 23 (heads (deskTel 1 .poll []))) ∧ plant.desk.rx = []
      ∧ gives (exec (.deskBufferServe []) plant) plant = true
      ∧ plant.bindingOf 51 = some (.valve 1) ∧ plant.bindingOf 199 = none
      ∧ ([(deskTel 1 .poll [], .deskPoll (deskTelegramOf (deskTel 1 .poll []))), (deskTel 199 .poll [], .deskPoll (deskTelegramOf (deskTel 199 .poll []))),
        (deskTel 51 .order [1], .deskOrderBound (deskTelegramOf (deskTel 51 .order [1]))),
        (deskTel 199 .order [9], .deskOrderUnbound (deskTelegramOf (deskTel 199 .order [9]))),
        (deskTel 200 .poll [], .deskGroupTelegram (deskTelegramOf (deskTel 200 .poll []))),
        (deskTel 211 .order [8], .deskGroupTelegram (deskTelegramOf (deskTel 211 .order [8]))),
        (deskTel 255 .poll [], .deskGroupTelegram (deskTelegramOf (deskTel 255 .poll [])))] : List (Telegram × Instr)).all (fun p =>
          gives (exec (.deskBufferServe []) (heads p.1)) (after p.2 (plant.withRx [deskTel 9 .poll []]))) = true
      ∧ ([deskTel 1 .ask [3], deskTel 0 .poll [], deskTel 0 .order [1], deskTel 1 .report [0]]).all (fun t =>
          (after (.deskBufferServe []) (heads t)).desk.counters.strays == 1) = true := by decide +kernel

theorem test_asks_in_the_buffer_are_their_rows :
    let held := { heads (deskTel 0 .ask [3]) with desk := { (heads (deskTel 0 .ask [3])).desk with
      rx := [{ deskTel 0 .ask [3] with rept := true }], lastAnswer := some ⟨7, 3, .done, none, words [1]⟩ } }
    Serves (heads (deskTel 0 .ask [3])) ∧ okIs (decodeAsk [3#16]) .run = true ∧ askRow ⟨7, false⟩ [] .run = some (.run ⟨7, false⟩)
      ∧ badAt (decodeAsk [17#16]) 1 = true ∧ held.heldAnswer ⟨7, true⟩ 3 = some ⟨7, 3, .done, none, words [1]⟩ ∧ Serves held
      ∧ gives (exec (.deskBufferServe []) (heads (deskTel 0 .ask [3]))) (after (.run ⟨7, false⟩) (plant.withRx [deskTel 9 .poll []])) = true
      ∧ gives (exec (.deskBufferServe []) (heads (deskTel 0 .ask [17])))
        (after (.askMalformed ⟨7, false⟩ [17#16]) (plant.withRx [deskTel 9 .poll []])) = true
      ∧ gives (exec (.deskBufferServe []) held) (after (.askRepeat ⟨7, true⟩ [3#16]) (held.withRx [])) = true := by decide +kernel

theorem test_full_transmit_queue_stops_the_desk :
    ([.run hd, .deskPoll (deskPoll 11), .askMalformed hd [], .writeHolderRecord hd 1 holderRec, .deskBufferServe []] : List Instr).all
      (fun c => isDeskRow c && gives (exec c (withTx 24 plant)) (withTx 24 plant)) = true ∧ Settled (withTx 24 plant) := by
  decide +kernel

/-! ### Answers -/

theorem test_a_repeat_gets_the_held_answer :
    let s := { plant with desk := { plant.desk with lastAnswer := some ⟨5, 3, .done, none, words [1]⟩, overrun := true } }
    Serves s ∧ (after (.askRepeat ⟨5, true⟩ [3#16]) s).desk.tx = [.answer 5 .done 3 (flagsWord false true) none (words [1])]
      ∧ (after (.askRepeat ⟨5, true⟩ [3#16]) s).desk.overrun = false := by decide +kernel

theorem test_malformed_asks_are_bad :
    Takes plant hd 3 ∧ badAt (decodeAsk [0#16]) 1 = true ∧ badAt (decodeAsk [17#16]) 1 = true
      ∧ badAt (decodeAsk [34#16]) 1 = true ∧ badAt (decodeAsk [33#16, 1#16]) 3 = true ∧ Takes plant hd 33
      ∧ gives (exec (.askMalformed hd [33#16, 1#16]) plant) (plant.answered hd 33 .bad none (words [3])) = true := by decide +kernel

theorem test_malformed_asks_answer_as_their_requests_do :
    let owed := { plant with mem := { plant.mem with autoRun := true } }
    Takes owed hd 6 ∧ Takes plant hd 11 ∧ Takes plant hd 32 ∧ Takes plant hd 2 ∧ badAt (decodeAsk [6#16, 1#16]) 2 = true
      ∧ badAt (decodeAsk [11#16]) 2 = true ∧ badAt (decodeAsk [32#16]) 2 = true ∧ badAt (decodeAsk [2#16]) 2 = true
      ∧ (after (.askMalformed hd [6#16, 1#16]) owed).mem.autoRun = false
      ∧ gives (exec (.askMalformed hd [11#16]) plant) (plant.answered hd 11 .bad none (words [2])) = true
      ∧ gives (exec (.askMalformed hd [32#16]) plant) (plant.answered hd 32 .bad none (words [2, 0, 0, 0])) = true := by decide +kernel

/-! ### Table access -/

/-- The answer given last is this, to a request of tag 5. -/
def told (t : State) (code : Nat) (r : Result) (ws : List Nat) : Bool := decide (t.desk.lastAnswer = some ⟨5, code, r, none, words ws⟩)

theorem test_read_entry :
    Takes plant hd 1 ∧ indexOk 0 1 = none ∧ indexOk 17 1 = none ∧ indexOk 1 5 = some false ∧ indexOk 1 4 = some true ∧ plant.entryWords 1 2 = none
      ∧ (plant.entryWords 1 1).isSome = true ∧ (plant.meter 8).damaged = false ∧ plant.mem.tracking < 254
      ∧ told (after (.readEntry hd 17 1 0 []) plant) 1 .bad [2] = true ∧ told (after (.readEntry hd 1 5 0 []) plant) 1 .bad [3] = true
      ∧ told (after (.readEntry hd 1 4 4 []) plant) 1 .bad [4] = true ∧ told (after (.readEntry hd 1 2 3 []) plant) 1 .notFound [] = true
      ∧ told (after (.readEntry hd 1 1 3 []) plant) 1 .bad [4] = true
      ∧ told (after (.readEntry hd 2 1 0 []) plant) 1 .done [1, 1, 51, 120, 0, 0, 0] = true
      ∧ (after (.readEntry hd 5 8 0 [(.meter 8, .single)]) plant).mem.tracking = 1 := by decide +kernel

def stagedAt (next : Nat) : State := { plant with desk := { plant.desk with staged := some ⟨1, 2, [1#16], next⟩ } }

theorem test_entry_parts :
    Takes (stagedAt 3) hd 2 ∧ writeRefusal 15 1 0 = some 2 ∧ writeRefusal 1 2 3 = none ∧ writeRefusal 1 2 0 = none ∧ plant.desk.staged = none
      ∧ (after (.writeEntryPart hd 1 2 0 false [7#16]) plant).desk.staged = some ⟨1, 2, [7#16], 1⟩
      ∧ (after (.writeEntryPart hd 1 2 3 false [7#16]) (stagedAt 3)).desk.staged = some ⟨1, 2, [1#16, 7#16], 4⟩
      ∧ (after (.writeEntryPart hd 1 2 3 false [7#16]) (stagedAt 2)).desk.staged = none
      ∧ (after (.writeEntryPart hd 15 2 3 false [7#16]) (stagedAt 2)).desk.staged = (stagedAt 2).desk.staged
      ∧ told (after (.writeEntryPart hd 1 2 3 false [7#16]) plant) 2 .badState [] = true := by decide +kernel

/-- EMPTY without the final mark: a poll list position is emptied, a meter entry is BAD, a holder record's part is staged (10 R197). -/
theorem test_an_empty_mark_acts_in_any_part :
    let second : State := { plant with desk := { plant.desk with staged := some ⟨9, 2, [1#16], 1⟩ } }
    writeRefusal 5 8 0 = none ∧ writeRefusal 9 2 1 = none ∧ plant.mem.sweep = false ∧ (plant.poll 2).isSome = true
      ∧ told (after (.writeEntryPart hd 5 8 0 true []) plant) 2 .bad [4] = true
      ∧ (after (.writeEntryPart hd 5 8 0 true []) (stagedAt 1)).desk.staged = none
      ∧ (after (.writeEntryPart hd 9 2 0 true [7#16]) plant).poll 2 = none ∧ told (after (.writeEntryPart hd 9 2 0 true []) plant) 2 .done [] = true
      ∧ (after (.writeEntryPart hd 9 2 1 true []) second).poll 2 = none ∧ (after (.writeEntryPart hd 9 2 1 true []) second).desk.staged = none
      ∧ told (after (.writeEntryPart hd 9 2 1 true []) plant) 2 .badState [] = true
      ∧ (after (.writeEntryPart hd 1 2 0 true [7#16]) plant).desk.staged = some ⟨1, 2, [7#16], 1⟩ := by decide +kernel

theorem test_meter_and_line_entries :
    Takes plant hd 2 ∧ plant.mem.sweep = false ∧ (after (.writeMeterEntry hd 8 10000 65535) plant).meter 8 = { Meter.initial with weight := 10000 }
      ∧ (after (.writeMeterEntry hd 0 1 1) plant).meter 0 = { Meter.initial with weight := 1, limit := 1 }
      ∧ told (after (.writeMeterEntry hd 0 10001 1) plant) 2 .bad [5] = true ∧ told (after (.writeMeterEntry hd 0 1 0) plant) 2 .bad [6] = true
      ∧ ((after (.writeLineTable hd 3 ⟨19200, 8, 1, 63⟩) plant).line .f3).set = ⟨19200, 8, 1, 63⟩
      ∧ told (after (.writeLineTable hd 3 ⟨9601, 8, 1, 63⟩) plant) 2 .bad [5] = true := by decide +kernel

theorem test_poll_positions :
    Takes plant hd 2 ∧ plant.pollConflict 48 (pollRec 51) = true ∧ plant.pollConflict 48 (pollRec 199) = false ∧ plant.pollConflict 2 (pollRec 51) = false
      ∧ told (after (.writePollPosition hd 48 (some (pollRec 51))) plant) 2 .conflict [] = true
      ∧ ((after (.writePollPosition hd 48 (some { pollRec 199 with retries := 3, cls := 4, nth := 16 })) plant).poll 48).isSome = true
      ∧ (after (.writePollPosition hd 2 none) plant).poll 2 = none ∧ (after (.removeRecord hd 9 2) plant).poll 2 = none := by decide +kernel

def fullDirectory : State := { plant with dir := (List.range 64).map fun n => (n + 1, freshEntry none .static none false 0#12) }

theorem test_directory_entries :
    Takes plant hd 2 ∧ plant.entry 51 = some (bound (.valve 1)) ∧ plant.entry 199 = none ∧ plant.dir.length < 64
      ∧ fullDirectory.entry 199 = none ∧ 64 ≤ fullDirectory.dir.length ∧ (fullDirectory.dir.all fun p => p.2.kind != .learned) = true
      ∧ ((after (.writeDirectoryEntry hd 51 ⟨51, some .f3, 1#12⟩) plant).entry 51).map (fun e => (e.kind, e.line)) = some (.bound, some .f3)
      ∧ ((after (.writeDirectoryEntry hd 199 ⟨199, none, 1#12⟩) plant).entry 199).map (fun e => (e.kind, e.line, e.seq)) = some (.static, none, 1)
      ∧ told (after (.writeDirectoryEntry hd 199 ⟨199, none, 1#12⟩) fullDirectory) 2 .full [] = true := by decide +kernel

/-- A directory of 64 with two LEARNED entries, that of station 20 the older. -/
def crowded : State := { plant with dir := (List.range 64).map fun n =>
  (n + 1, { freshEntry none (if n = 9 ∨ n = 19 then .learned else .static) none false 0#12 with seq := 100 - n }) }

theorem test_a_full_directory_evicts_its_oldest_learned_entry :
    let t := after (.writeDirectoryEntry hd 199 ⟨199, some .f2, 1#12⟩) crowded
    Takes crowded hd 2 ∧ crowded.entry 199 = none ∧ 64 ≤ crowded.dir.length ∧ tblWf crowded.dir = true
      ∧ (crowded.entry 20).map (fun e => (e.kind, e.seq)) = some (.learned, 81)
      ∧ (crowded.dir.all fun p => p.2.kind != .learned || p.1 == 20 || decide (81 < p.2.seq)) = true
      ∧ t.entry 20 = none ∧ (t.entry 10).isSome = true ∧ (t.entry 199).map (·.kind) = some .static ∧ t.relay.dirFull = 0
      ∧ (after (.writeDirectoryEntry hd 199 ⟨199, none, 1#12⟩) fullDirectory).relay.dirFull = 1 := by decide +kernel

theorem test_records_are_removed :
    Takes plant hd 2 ∧ TablesSound plant ∧ plant.holder 1 ≠ none ∧ plant.holder 4 = none ∧ plant.runState = .standby ∧ inRun.runState ≠ .standby
      ∧ plant.valve 1 ≠ none ∧ plant.valveFree 1 = true ∧ plant.valveParked 1 = false
      ∧ (plant.district 1).map (·.slot.state) = some .free ∧ (plant.booster 1).map boosterBusy = some false
      ∧ (after (.removeRecord hd 1 1) plant).holder 1 = none ∧ (after (.removeRecord hd 2 1) plant).valve 1 = none
      ∧ (after (.removeRecord hd 3 1) plant).district 1 = none ∧ (after (.removeRecord hd 4 1) plant).booster 1 = none
      ∧ told (after (.removeRecord hd 1 4) plant) 2 .notFound [] = true ∧ told (after (.removeRecord hd 1 1) inRun) 2 .badState [] = true
      ∧ Takes inRun hd 2 ∧ TablesSound inRun := by decide +kernel

def queuedSlot (c : OrderCode) : Slot := { Slot.free with state := .queued, code := c }

def valveHeld : State := { plant with valves := [(1, { valveInitial ⟨1, 51, 120⟩ false with slot := queuedSlot .opn })] }

theorem test_holder_and_valve_records :
    Takes plant hd 2 ∧ checkHolder holderRec = .ok ∧ plant.holderRefusal 1 holderRec = none
      ∧ plant.holderRefusal 4 { holderRec with gauge := 151, inlet := 3, outlet := 4 } = some .conflict
      ∧ checkHolder { holderRec with lifts := 5 } ≠ .ok ∧ told (after (.writeHolderRecord hd 1 holderRec) plant) 2 .done [] = true
      ∧ told (after (.writeHolderRecord hd 4 { holderRec with gauge := 151, inlet := 3, outlet := 4 }) plant) 2 .conflict [] = true
      ∧ plant.valveFree 8 = true ∧ plant.valveParked 8 = false ∧ plant.examineBindings [(.valve 8, 199)] = none
      ∧ plant.examineBindings [(.valve 8, 51)] = some .conflict ∧ valveHeld.valveFree 1 = false ∧ Takes valveHeld hd 2
      ∧ ((after (.writeValveRecord hd 8 ⟨8, 199, 900⟩) plant).valve 8).isSome = true
      ∧ told (after (.writeValveRecord hd 8 ⟨8, 51, 5⟩) plant) 2 .conflict [] = true
      ∧ told (after (.writeValveRecord hd 1 ⟨1, 51, 5⟩) valveHeld) 2 .badState [] = true := by decide +kernel

theorem test_a_holder_word_out_of_range : checkHolder { holderRec with lifts := 5 } = .word 3
    ∧ told (after (.writeHolderRecord hd 1 { holderRec with lifts := 5 }) plant) 2 .bad [8] = true := by decide +kernel

def governorBusy : State := { plant with districts := [(1, ⟨districtRec, false, DistrictRt.initial districtRec false, queuedSlot .raise⟩)] }

def boosterRuns : State := { plant with boosters := [(1, { Booster.initial boosterRec false with state := .running, district := some 1 })] }

theorem test_district_and_booster_records :
    Takes plant hd 2 ∧ Takes governorBusy hd 2 ∧ Takes boosterRuns hd 2 ∧ checkDistrict districtRec = .ok
      ∧ governorBusy.governorHeld 1 { districtRec with governor := 104 } = true
      ∧ plant.governorHeld 8 { districtRec with governor := 51 } = false
      ∧ plant.examineBindings (districtBindings 8 districtRec) = some .conflict ∧ plant.examineBindings (districtBindings 1 districtRec) = none
      ∧ told (after (.writeDistrictRecord hd 1 { districtRec with governor := 104 }) governorBusy) 2 .badState [] = true
      ∧ told (after (.writeDistrictRecord hd 8 districtRec) plant) 2 .conflict [] = true
      ∧ told (after (.writeDistrictRecord hd 1 districtRec) plant) 2 .done [] = true
      ∧ (boosterRuns.booster 1).map boosterBusy = some true ∧ (plant.booster 3) = none ∧ plant.examineBindings [(.booster 3, 199)] = none
      ∧ told (after (.writeBoosterRecord hd 1 ⟨151, true, 50, 30⟩) boosterRuns) 2 .badState [] = true
      ∧ ((after (.writeBoosterRecord hd 3 ⟨199, true, 300, 600⟩) plant).booster 3).isSome = true := by decide +kernel

/-- A write that names another recorder station takes a BLIND district out of BLIND by Table 4.3 (04 R82, R84; log entry 70). -/
theorem test_district_write_naming_another_recorder :
    let rt : DistrictRt := { DistrictRt.initial districtRec false with state := .blind, last := some ⟨150, 0, 0, true⟩ }
    let blind := { plant with districts := [(1, ⟨districtRec, false, rt, Slot.free⟩)] }
    let stateAfter (r : DistrictRec) := ((after (.writeDistrictRecord hd 1 r) blind).district 1).map (·.rt.state)
    stateAfter districtRec = some .blind ∧ stateAfter { districtRec with recorder := 104 } = some .headShort
      ∧ stateAfter { districtRec with recorder := 104, headGain := 500 } = some .tracking := by decide +kernel

/-- A holder written where there was none joins the drawing set when its outlet is OPEN already (03 R74). -/
theorem test_new_holder_record_joins_the_drawing_set :
    let opened : Valve := { valveInitial ⟨2, 52, 120⟩ false with state := .opened }
    let s := { plant with holders := [], valves := tblPut plant.valves 2 opened, draw := { plant.draw with mode := .auto } }
    (after (.writeHolderRecord hd 1 holderRec) s).draw.set = [1]
      ∧ (after (.writeHolderRecord hd 1 holderRec) { s with valves := plant.valves }).draw.set = [] := by decide +kernel

theorem test_yard_and_draw_records :
    let r := { YardRec.default with makeMeter := some 199, autoRun := true }
    let owed := { plant with mem := { plant.mem with autoRun := true } }
    Takes owed hd 2 ∧ checkYard r = .ok ∧ plant.examineBindings [(.makeMeter, 199)] = none ∧ plant.examineBindings [(.makeMeter, 51)] = some .conflict
      ∧ (after (.writeYardRecord hd r) owed).mem.autoRun = true ∧ ((after (.writeYardRecord hd r) owed).meter 0).station = some 199
      ∧ (after (.writeYardRecord hd YardRec.default) owed).mem.autoRun = false
      ∧ told (after (.writeYardRecord hd { r with makeMeter := some 51 }) plant) 2 .conflict [] = true
      ∧ checkDraw ⟨[4, 1], 2⟩ = .ok ∧ checkDraw ⟨[1], 5⟩ ≠ .ok ∧ (after (.writeDrawRecord hd ⟨[4, 1], 2⟩) plant).draw.tab = ⟨[4, 1], 2⟩ := by
  decide +kernel

/-! ### Run state, clock, flags, notices, counters -/

def refused (t : State) (code : Nat) (why : Reason) (ws : List Nat) : Bool :=
  decide (t.desk.lastAnswer = some ⟨5, code, .refused, some why, words ws⟩)

theorem test_run :
    Takes plant hd 3 ∧ Takes inRun hd 3 ∧ plant.unpolled = [] ∧ ({ plant with polls := plant.polls.take 5 } : State).unpolled = [103, 151]
      ∧ told (after (.run hd) inRun) 3 .done [1] = true ∧ refused (after (.run hd) State.reset) 3 .missingTable [1, 0] = true
      ∧ refused (after (.run hd) { plant with districts := [] }) 3 .missingTable [2, 0] = true
      ∧ refused (after (.run hd) { plant with yardPresent := false }) 3 .missingTable [3, 0] = true
      ∧ refused (after (.run hd) { plant with yardDamaged := true }) 3 .missingTable [3, 0] = true
      ∧ refused (after (.run hd) { plant with polls := plant.polls.take 5 }) 3 .unpolled [103, 2, 0] = true
      ∧ (after (.run hd) plant).runState = .run ∧ told (after (.run hd) plant) 3 .done [1] = true := by decide +kernel

theorem test_hold_and_standby :
    Takes inRun hd 4 ∧ Takes plant hd 4 ∧ Takes inRun hd 5 ∧ told (after (.hold hd) inRun) 4 .done [2] = true
      ∧ (after (.hold hd) inRun).runState = .hold ∧ told (after (.hold hd) plant) 4 .badState [0] = true
      ∧ told (after (.standby hd) inRun) 5 .done [0] = true := by decide +kernel

theorem test_restart :
    Takes inRun hd 6 ∧ inRun.restartUnits.draw.main = inRun.draw.main ∧ inRun.restartUnits.draw.mainStale = inRun.draw.mainStale
      ∧ (after (.restart hd) inRun).runState = .standby ∧ told (after (.restart hd) inRun) 6 .done [0] = true := by decide +kernel

theorem test_set_clock :
    Takes plant hd 7 ∧ Takes State.reset hd 7 ∧ State.reset.districts = []
      ∧ (after (.setClock hd 65535 86399) plant).clock = ⟨65535, 86399, true⟩
      ∧ told (after (.setClock hd 65535 86399) plant) 7 .done [0, 0, 0, 0] = true
      ∧ (after (.setClock hd 1 61) State.reset).acct.openAcct.closeDue = 839
      ∧ told (after (.setClock hd 65536 0) plant) 7 .bad [2] = true ∧ told (after (.setClock hd 65535 86400) plant) 7 .bad [3] = true := by
  decide +kernel

theorem test_set_flags :
    Takes plant hd 8 ∧ (after (.setFlags hd 0xF001#16) plant).flags = 0x01#8 ∧ (plant.districts.all fun p => flagNamed 0#8 (applyFlags 0x0C00#16 0#8) p.2) = false
      ∧ (plant.districts.all fun p => flagNamed 0#8 (applyFlags 0x0001#16 0#8) p.2) = true
      ∧ applyFlags 0xFFFF#16 0xC0#8 = 0xFF#8 ∧ told (after (.setFlags hd 0x0C00#16) plant) 8 .done [0x20] = true := by decide +kernel

theorem test_read_notices :
    Takes (withNotices 6 plant) hd 9 ∧ (withNotices 31 plant).desk.notices.length < 32
      ∧ (after (.readNotices hd 4) (withNotices 6 plant)).desk.notices.length = 2 ∧ told (after (.readNotices hd 4) plant) 9 .empty [] = true
      ∧ told (after (.readNotices hd 1) (withNotices 1 plant)) 9 .done [1, 4610, 0, 0, 0, 0, 0, 0] = true
      ∧ told (after (.readNotices hd 5) (withNotices 6 plant)) 9 .bad [2] = true ∧ told (after (.readNotices hd 0) plant) 9 .bad [2] = true := by
  decide +kernel

theorem test_read_counts :
    let s := { withTx 0 plant with
      desk := { plant.desk with counters := ⟨1, 2, 3, 4, 5, 6, 7, 0⟩, lostNotices := 9 }, mem := { plant.mem with tracking := 3 } }
    Takes s hd 10 ∧ told (after (.readCounts hd 0 1) s) 10 .done [1, 2, 3, 4, 5, 6, 7, 0] = true
      ∧ (after (.readCounts hd 0 1) s).desk.counters = Counters.zero ∧ told (after (.readCounts hd 4 1) s) 10 .done [0, 9, 3] = true
      ∧ (after (.readCounts hd 4 1) s).mem.tracking = 0 ∧ told (after (.readCounts hd 3 0) s) 10 .done [0, 0, 0, 0, 0, 0, 0, 0] = true
      ∧ told (after (.readCounts hd 5 0) s) 10 .bad [2] = true ∧ told (after (.readCounts hd 4 2) s) 10 .bad [3] = true := by decide +kernel

/-! ### Directory, table check, store -/

def watched (n : Nat) : State := { plant with dir := plant.dir.zipIdx.map fun p => (p.1.1, { p.1.2 with watch := decide (p.2 < n) }) }

theorem test_watch :
    Takes (watched 4) hd 11 ∧ (watched 4).entry 103 = some (bound (.meter 1)) ∧ (watchList (watched 4).dir) = [11, 51, 52, 101]
      ∧ (watchList (watched 3).dir).length < 4 ∧ plant.entry 199 = none
      ∧ told (after (.watch hd 103 0) (watched 4)) 11 .full [11, 51, 52, 101] = true
      ∧ told (after (.watch hd 101 0) (watched 4)) 11 .done [11, 51, 52, 101] = true
      ∧ told (after (.watch hd 103 0) (watched 3)) 11 .done [11, 51, 52, 103] = true
      ∧ told (after (.watch hd 51 1) (watched 3)) 11 .done [11, 52] = true
      ∧ told (after (.watch hd 200 0) (watched 1)) 11 .bad [2, 11] = true ∧ told (after (.watch hd 199 2) (watched 1)) 11 .bad [3, 11] = true
      ∧ told (after (.watch hd 199 1) (watched 1)) 11 .notFound [11] = true := by decide +kernel

theorem test_search :
    Takes plant hd 12
      ∧ (after (.search hd 51 1 3 0) plant).desk.lastAnswer = some ⟨5, 12, .done, none,
        .entries [(51, bound (.valve 1)), (52, bound (.valve 2)), (101, bound (.governor 1)), (102, bound (.recorder 1))] (some 103) 0 0 7⟩
      ∧ told (after (.search hd 0 1 3 0) plant) 12 .bad [2] = true ∧ told (after (.search hd 200 1 3 0) plant) 12 .bad [2] = true := by decide +kernel

def withLearned : State := { plant with dir := plant.dir ++ [(198, freshEntry none .static none false 0#12), (199, freshEntry none .learned none false 0#12)] }

theorem test_delete_and_clear :
    Takes withLearned hd 13 ∧ Takes withLearned hd 14 ∧ withLearned.mem.sweep = false ∧ withLearned.entry 197 = none
      ∧ (withLearned.entry 199).map (·.kind) = some .learned ∧ (withLearned.entry 51).map (·.kind) = some .bound
      ∧ (after (.delete hd 199) withLearned).entry 199 = none ∧ told (after (.delete hd 197) withLearned) 13 .notFound [] = true
      ∧ told (after (.delete hd 51) withLearned) 13 .badState [] = true ∧ told (after (.delete hd 200) withLearned) 13 .bad [2] = true
      ∧ told (after (.clear hd) withLearned) 14 .done [1] = true := by decide +kernel

theorem test_table_check :
    let s := { plant with mem := { plant.mem with sweep := true } }
    Takes plant hd 15 ∧ Takes s hd 14 ∧ s.mem.sweep = true ∧ told (after (.tableCheck hd) plant) 15 .started [] = true
      ∧ told (after (.tableCheck hd) s) 15 .busy [] = true ∧ (after (.tableCheckDone []) s).mem.sweep = false
      ∧ (after (.clear hd) s).desk.notices.map (·.kind) = [.checkAborted] := by decide +kernel

theorem test_errors_found :
    let s := meets ⟨.meter 3, .single, true⟩ { plant with mem := { plant.mem with sweep := true } }
    let u := { plant with mem := { plant.mem with sweep := true } }
    s.pending = [] ∧ Settled u ∧ u.mem.sweep = true ∧ s.mem.tracking < 254 ∧ (u.meter 3).damaged = false ∧ (stepped s).mem.swept = (1, 0)
      ∧ (plant.recordDamaged (.holder 1)).handoffs = [.addCause 1 .record] ∧ ((plant.recordDamaged (.valve 1)).valve 1).map (·.damaged) = some true
      ∧ (plant.recordDamaged (.district 1)).handoffs = [.districtDerive 1, .shed 1]
      ∧ (plant.booster 1).map (·.state) = some .free ∧ ((plant.recordDamaged (.booster 1)).booster 1).map (·.state) = some .out
      ∧ (plant.entry 51).map (·.kind) = some .bound ∧ ((plant.recordDamaged (.directory 51)).entry 51).map (·.lost) = some true
      ∧ (withLearned.entry 198).map (·.kind) = some .static ∧ (withLearned.recordDamaged (.directory 198)).entry 198 = none
      ∧ State.reset.fill.work[23]? = some ⟨0, false⟩ := by decide +kernel

theorem test_readers_of_errors_met :
    Takes plant hd 10 ∧ Takes plant hd 22 ∧ (plant.meter 8).damaged = false ∧ plant.mem.tracking < 254
      ∧ (plant.valve 2).map (·.damaged) = some false
      ∧ told (after (.readCounts hd 4 0) (meets ⟨.meter 8, .single, false⟩ plant)) 10 .done [0, 0, 1] = true
      ∧ (after (.readValve hd 2) (meets ⟨.valve 2, .double, false⟩ plant)).desk.lastAnswer
        = some ⟨5, 22, .done, none, .valve 52 900 1125 .unknown false ⟨.free, none⟩⟩ := by decide +kernel

/-- The make meter station of a damaged yard record is the one bound, whatever the record names (11 Table 11.1). -/
theorem test_make_meter_of_a_damaged_yard_record :
    let s : State := { plant with
      yard := { YardRec.default with makeMeter := some 70 }, meters := [(0, { Meter.initial with station := some 70, last := some 5 })] }
    let b : State := { s with dir := s.dir ++ [(170, bound .makeMeter)] }
    s.yardNow.makeMeter = some 70 ∧ (s.recordDamaged .yard).yardNow.makeMeter = none
      ∧ ((s.recordDamaged .yard).meter 0).station = none ∧ (b.recordDamaged .yard).yardNow.makeMeter = some 170
      ∧ ((b.recordDamaged .yard).meter 0).station = some 170 ∧ ((b.recordDamaged .yard).meter 0).last = none := by decide +kernel

theorem test_a_meter_entry_found_damaged :
    ((after (.readEntry hd 5 8 0 [(.meter 8, .double)]) plant).meter 8).damaged = true
      ∧ (after (.readEntry hd 5 8 0 [(.meter 8, .double)]) plant).desk.notices.map (·.kind) = [.recordDamaged] := by decide +kernel

def writingStore (bs : List Block) (again : Bool) : State := { plant with mem := { plant.mem with writing := some ⟨bs, 3, again⟩ } }

theorem test_store_write :
    let b : Block := ⟨13, none, true⟩
    Takes plant hd 16 ∧ Takes (writingStore [b] true) hd 16 ∧ skipOk 0x8000#16 = false ∧ skipOk 0x0002#16 = true ∧ plant.mem.writing = none
      ∧ told (after (.storeTables hd 0x8000#16 []) plant) 16 .bad [2] = true ∧ told (after (.storeTables hd 2#16 []) plant) 16 .started [] = true
      ∧ ((after (.storeTables hd 2#16 []) plant).mem.writing.map (fun w => w.blocks.map (·.content.isSome)))
        = some [false, true, true, true, true, true, true, true, true, true, true, true]
      ∧ told (after (.storeTables hd 2#16 []) (writingStore [b] true)) 16 .busy [] = true
      ∧ (after (.storeBlockWritten true) (writingStore [b, b] false)).mem.writing = some ⟨[b], 4, false⟩
      ∧ (after (.storeBlockWritten true) (writingStore [b] false)).desk.notices.map (·.detail) = [.one 4]
      ∧ (after (.storeBlockWritten false) (writingStore [b] false)).mem.writing = some ⟨[b], 3, true⟩
      ∧ (after (.storeBlockWritten false) (writingStore [b, b] true)).mem.writing = some ⟨[b], 3, false⟩
      ∧ (after (.storeBlockWritten false) (writingStore [b] true)).desk.notices.map (·.detail) = [.one 3] := by decide +kernel

/-! ### Requests of the units -/

theorem test_readings :
    Takes plant hd 18 ∧ Takes plant hd 22 ∧ Takes plant hd 28 ∧ Takes plant hd 31 ∧ plant.holder 4 = none ∧ plant.valve 8 = none
      ∧ plant.district 8 = none ∧ (plant.holder 1).isSome = true ∧ (plant.valve 1).map (·.damaged) = some false ∧ (plant.district 1).isSome = true
      ∧ told (after (.readHolder hd 5) plant) 18 .bad [2] = true ∧ told (after (.readHolder hd 4) plant) 18 .notFound [] = true
      ∧ told (after (.readValve hd 9) plant) 22 .bad [2] = true ∧ told (after (.readValve hd 8) plant) 22 .notFound [] = true
      ∧ told (after (.readDistrict hd 0) plant) 28 .bad [2] = true ∧ told (after (.readDistrict hd 8) plant) 28 .notFound [] = true
      ∧ (after (.readValve hd 1) plant).desk.lastAnswer = some ⟨5, 22, .done, none, .valve 51 120 150 .unknown false ⟨.free, none⟩⟩
      ∧ Slot.free.state = .free ∧ (queuedSlot .opn).state ≠ .free
      ∧ ((plant.shownSlot (queuedSlot .opn)).order.map (·.code)) = some .opn := by decide +kernel

/-- A booster with every value present at its widest, its order in this slot state and as old as the count of seconds goes. -/
def fullBooster (b : BState) (st : SlotState) (n : Nat) : ShownBooster :=
  ⟨n, ⟨199, true, 300, 600⟩, b, some n, some 3600, some .poolManual, some .stopFailed, some (true, 65535), some 600,
    ⟨st, some ⟨.stop, .desk, some 255, 4294967295, some 600, true, some (.desk, some 255)⟩⟩⟩

/-- READ BOOSTERS of three such boosters, every district that they do not hold in the queue. -/
def fullPool (b : BState) (st : SlotState) : List Digit :=
  let bs := [1, 2, 3].map (fullBooster b st)
  let queue := [8, 7, 6, 5, 4, 3, 2, 1].filter fun d => !((holding bs).map (·.number)).contains d
  poolDigits { State.reset.pool with queue := queue, usable := 1919808, judged := true, level := 3 } bs (some 7200)
    ([1, 2, 3, 4, 5, 6, 7, 8].map fun d => (d, 3))

theorem test_read_boosters_fits_an_answer :
    ([BState.starting, .stopping].all fun b => [SlotState.queued, .sent, .travel].all fun st =>
      decide ((packDigits (fullPool b st)).length ≤ 29) && (fullPool b st).all fun d => decide (d.2 < d.1)) = true
      ∧ (packDigits (fullPool .starting .travel)).length = 29 := by
  decide +kernel

/-- READ BOOSTERS of the small yard, digit by digit: pool MANUAL, booster 1 FREE, no queue, the reserve unjudged, district 1 at shed level 0.
The slot of a START that the part gave itself, and of a STOP of the desk with a follow-up, by the codes of R193. -/
theorem test_read_boosters_digits :
    poolDigits { plant.pool with mode := plant.poolMode } (plant.boosters.map fun p => plant.shownBooster p.1 p.2)
        (plant.secondsTo plant.pool.recoveryDue) (plant.districts.map fun p => (p.1, p.2.rt.shed))
      = [(2, 1), (2, 1), (199, 150), (2, 1), (251, 30), (571, 90), (6, 0), (8, 0), (131073, 0), (602, 0), (4, 0), (2, 0), (2, 0), (9, 0),
          (1919809, 0), (5, 0), (7202, 0), (5, 1), (5, 0), (5, 0), (5, 0), (5, 0), (5, 0), (5, 0), (5, 0)]
      ∧ boosterSlotDigits true ⟨.travel, some ⟨.start, .booster, none, 9, some 30, false, none⟩⟩
        = [(4, 3), (8, 6), (9, 7), (256, 0), (4294967296, 9), (603, 31)]
      ∧ boosterSlotDigits false ⟨.sent, some ⟨.start, .booster, none, 9, none, false, some (.desk, some 4)⟩⟩
        = [(4, 2), (8, 6), (9, 7), (256, 0), (4294967296, 9), (2, 1), (9, 8), (256, 4)]
      ∧ poolQueueDigits [fullBooster .running .free 2] [3, 8, 1] = [(8, 3), (7, 1), (6, 5), (5, 0)]
      ∧ packDigits [(2, 1), (9, 4), (65536, 500)] = [0, 1 + 2 * (4 + 9 * 500)] := by decide +kernel

theorem test_bars :
    Takes inRun hd 19 ∧ Takes inRun hd 20
      ∧ ((after (.bar hd 1 2) inRun).holder 1).map (fun z => (z.rt.fillBar, z.rt.drawBar)) = some (true, true)
      ∧ ((after (.unbar hd 1 0) (holderIs (fun r => { r with fillBar := true, drawBar := true }) inRun)).holder 1).map
        (fun z => (z.rt.fillBar, z.rt.drawBar)) = some (false, true)
      ∧ told (after (.bar hd 0 2) inRun) 19 .bad [2] = true ∧ told (after (.bar hd 4 3) inRun) 19 .bad [3] = true
      ∧ told (after (.unbar hd 4 2) inRun) 20 .notFound [] = true := by decide +kernel

theorem test_clear_fault :
    let latched := holderIs (fun r => { r with latch := true, state := .fault }) inRun
    let caused := holderIs (fun r => { r with latch := true, state := .fault, causes := { Causes.empty with gauge := true } }) inRun
    Takes latched hd 21 ∧ Takes caused hd 21 ∧ Causes.empty.isEmpty = true ∧ { Causes.empty with gauge := true }.isEmpty = false
      ∧ ((after (.clearFault hd 1) latched).holder 1).map (·.rt.latch) = some false
      ∧ (after (.clearFault hd 1) caused).desk.lastAnswer = some ⟨5, 21, .badState, none, .causes { Causes.empty with gauge := true }⟩
      ∧ (after (.clearFault hd 1) inRun).desk.lastAnswer = some ⟨5, 21, .badState, none, .causes Causes.empty⟩
      ∧ told (after (.clearFault hd 5) inRun) 21 .bad [2] = true ∧ told (after (.clearFault hd 4) inRun) 21 .notFound [] = true := by decide +kernel

def rotaRuns (s : State) : State := { s with fill := { s.fill with running := true, turnDue := some 900, turn := 23 } }

theorem test_rota :
    let ts := 4 :: List.replicate 23 1
    Takes plant hd 23 ∧ Takes (rotaRuns plant) hd 23 ∧ Takes plant hd 24 ∧ Takes inRun hd 24 ∧ ts.length = 24 ∧ (ts.all fun v => v ≤ 4) = true
      ∧ (4 :: List.replicate 23 5).zipIdx.find? (fun p => decide (4 < p.1)) = some (5, 1) ∧ plant.countedInlets.length ≤ 1
      ∧ told (after (.loadRota hd (4 :: List.replicate 23 5)) plant) 23 .bad [3] = true
      ∧ (after (.loadRota hd ts) plant).fill.work.map turnHolder = ts ∧ (after (.loadRota hd ts) (rotaRuns plant)).fill.pendFlag = true
      ∧ (after (.startRota hd) plant).fill.turnDue = some 900 ∧ (after (.startRota hd) inRun).fill.running = true
      ∧ told (after (.startRota hd) (rotaRuns plant)) 24 .badState [] = true := by decide +kernel

/-- The rota runs in RUN with every turn holder 1's, whose state is this. -/
def making (st : HState) : State :=
  let s := rotaRuns (holderIs (fun r => { r with state := st }) inRun)
  { s with fill := { s.fill with work := List.replicate 24 ⟨1, false⟩ } }

def fillingIs (f : Option Nat) (s : State) : State := { s with fill := { s.fill with filling := f } }

/-- The inlet and the outlet of holder 1. -/
def valvesAre (inlet outlet : VState) (s : State) : State := { s with
  valves := [(1, { valveInitial ⟨1, 51, 120⟩ false with state := inlet }), (2, { valveInitial ⟨2, 52, 120⟩ false with state := outlet })] }

theorem test_fill_selection :
    let again := fillingIs (some 1) (making .working)
    let rests := valvesAre .opened .shut (fillingIs (some 1) (making .high))
    (making .working).fill.work.length = 24 ∧ (making .working).fill.work[(23 + 0) % 24]? = some ⟨1, false⟩
      ∧ (making .working).eligible 1 = true ∧ (making .working).found = some 1 ∧ (making .high).eligible 1 = false ∧ (making .high).found = none
      ∧ rests.mayContinue 1 = true ∧ rests.found = some 1 ∧ plant.fillSelect = plant ∧ (making .high).fillSelect.fill.unplaced = true
      ∧ again.fillSelect.fill.chg = none ∧ again.fillSelect.fill.filling = some 1
      ∧ (making .working).fillSelect.fill.chg = some ⟨none, 1, .openingNew, false, none, false⟩ := by decide +kernel

def chgIs (c : FillChange) (s : State) : State := { s with fill := { s.fill with chg := some c } }

/-- Holder 2, whose inlet is valve 2, fills before holder 1. -/
def fromSecond (old : VState) : State :=
  let s := valvesAre .opened old (making .working)
  chgIs ⟨some 2, 1, .openingNew, true, none, false⟩ { s with holders := s.holders ++ [(2, ⟨{ holderRec with inlet := 2 }, false, HolderRt.initial holderRec⟩)] }

theorem test_fill_changeover :
    let c : FillChange := ⟨none, 1, .openingNew, false, none, false⟩
    let s := chgIs c (making .working)
    s.inCup 1 = false ∧ s.valveFree 1 = true ∧ s.valveState 1 ≠ some .opened ∧ s.fillTest.handoffs = [.claim (.valve 1) .opn 0 .fill none]
      ∧ (chgIs { c with openClaimed := true } s).fillTest = chgIs { c with openClaimed := true } s
      ∧ (chgIs { c with phase := .shuttingOld } s).fillTest = chgIs { c with phase := .shuttingOld } s
      ∧ (valvesAre .opened .shut s).fillTest.fill.chg = none ∧ (fromSecond .shut).fillTest.fill.chg = none
      ∧ ((fromSecond .shutting).fillTest.fill.chg.map (·.phase)) = some .shuttingOld ∧ (fromSecond .shutting).fillTest.handoffs = []
      ∧ (fromSecond .opened).fillTest.handoffs = [.claim (.valve 2) .shut 0 .fill none]
      ∧ (chgIs c (making .high)).eligible 1 = false ∧ ((chgIs c (making .high)).newHolderCheck 1).handoffs = [.fillSelect]
      ∧ (valvesAre .opened .shut (making .high)).mayContinue 1 = true ∧ (making .high).mayContinue 1 = false
      ∧ ((making .high).fillFailed { c with old := some 1 }).fill.unplaced = true := by decide +kernel

/-- A desk OPEN withdrawn from the inlet of a holder that enters TOP leaves no OPEN there, though a changeover waits to open it (02 R44). -/
theorem test_no_open_stands_in_top :
    let c : FillChange := ⟨none, 1, .openingNew, false, none, false⟩
    let order : Slot := { Slot.free with state := .queued, code := .opn, origin := .desk, tag := some ⟨9, false, 51, [1#16]⟩ }
    let rises := fun (r : HolderRt) => { r with state := .high, sighted := some .top }
    let s := busyLines (chgIs c (rotaRuns (holderIs rises inRun)))
    let t : State := { s with valves := s.valves.map fun p => (p.1, { p.2 with state := .shut, slot := if p.1 = 1 then order else p.2.slot }) }
    let u := settle 1000 (t.rederiveFrom 1 (HolderRt.initial holderRec))
    (u.holder 1).map (·.rt.state) = some .top ∧ (u.slot (.valve 1)).map (·.state) = some .free ∧ u.fill.chg = none
      ∧ (chgIs c (making .top)).fillTest = chgIs c (making .top) := by decide +kernel

/-- A holder that stays in TOP at a record write that names another inlet: the OPEN queued there is withdrawn (02 R44). -/
theorem test_an_inlet_named_in_top_is_examined :
    let order : Slot := { Slot.free with state := .queued, code := .opn, origin := .desk, tag := some ⟨9, false, 52, [1#16]⟩ }
    let s := busyLines (holderIs (fun r => { r with state := .top, sighted := some .top, height := some ⟨17500, 0, 0, false⟩ }) plant)
    let t : State := { s with valves := s.valves.map fun p => (p.1, { p.2 with slot := if p.1 = 2 then order else p.2.slot }) }
    let u := after (.writeHolderRecord hd 1 { holderRec with inlet := 2, outlet := 1 }) t
    (t.slot (.valve 2)).map (·.state) = some .queued ∧ (u.holder 1).map (fun x => (x.rt.state, x.tab.inlet)) = some (.top, 2)
      ∧ (u.slot (.valve 2)).map (·.state) = some .free := by decide +kernel

theorem test_stop_rota :
    Takes (rotaRuns inRun) hd 25 ∧ (after (.stopRota hd) (rotaRuns inRun)).fill.running = false
      ∧ (after (.stopRota hd) (rotaRuns inRun)).fill.turn = 23 := by decide +kernel

theorem test_modes :
    Takes inRun hd 26 ∧ Takes inRun hd 27 ∧ Takes inRun hd 29 ∧ inRun.mem.sweep = false
      ∧ (after (.setDrawMode hd 0) inRun).draw.mode = .auto ∧ told (after (.setDrawMode hd 1) inRun) 26 .done [] = true
      ∧ told (after (.setDrawMode hd 2) inRun) 26 .bad [2] = true ∧ (after (.setPoolMode hd 0) inRun).pool.mode = .auto
      ∧ told (after (.setPoolMode hd 2) inRun) 29 .bad [2] = true
      ∧ ((after (.setDistrictMode hd 1 1) inRun).district 1).map (·.tab.auto) = some false
      ∧ told (after (.setDistrictMode hd 9 1) inRun) 27 .bad [2] = true := by decide +kernel

/-- Draw AUTO in RUN with holder 1 listed, its state and outlet these. -/
def drawing (st : HState) (outlet : VState) : State :=
  let s := valvesAre .shut outlet (holderIs (fun r => { r with state := st }) inRun)
  { s with draw := { s.draw with mode := .auto, tab := ⟨[1], 1⟩ } }

def drawChg (c : DrawChange) (s : State) : State := { s with draw := { s.draw with chg := some c } }

theorem test_draw_evaluation :
    let s := drawing .working .shut
    let held := { s with runState := .hold }
    s.drawEligible 1 = true ∧ s.drawTarget = [1] ∧ plant.drawMode = .manual ∧ plant.drawCall = plant ∧ s.drawMode = .auto
      ∧ held.drawCall.draw.evalDue = true ∧ (drawing .out .shut).drawCall.draw.chg = none
      ∧ s.drawCall.draw.chg = some ⟨[(1, .waiting)], [], false, [], []⟩ := by decide +kernel

theorem test_draw_changeover :
    let c : DrawChange := ⟨[(1, .waiting)], [], false, [], []⟩
    let leaves : DrawChange := ⟨[], [1], false, [], []⟩
    let two (s : State) : State := { s with draw := { s.draw with set := [1, 2] } }
    (drawing .working .shut).outletOf 1 = some 2 ∧ (drawing .working .shut).valveFree 2 = true
      ∧ (drawChg c (drawing .working .shut)).drawStep.handoffs = [.drawOpen 1]
      ∧ ((drawChg c (drawing .working .shut)).drawOpen 1).handoffs = [.claim (.valve 2) .opn 0 .draw none]
      ∧ (drawChg c (drawing .working .opened)).drawOpen 1 = drawChg c (drawing .working .opened)
      ∧ (drawChg c (drawing .out .opening)).drawStep.handoffs = [.drawShut 1, .drawFinish]
      ∧ ((drawChg { c with entering := [(1, .failed)], owed := [1] } (drawing .out .opening)).drawShut 1).handoffs
        = [.claim (.valve 2) .shut 0 .draw none]
      ∧ ((drawChg { c with entering := [(1, .failed)], owed := [1] } (drawing .out .shut)).drawShut 1).handoffs = []
      ∧ ((drawChg { leaves with closing := true, claimed := [1], owed := [1] } (drawing .working .opened)).drawShut 1).handoffs
        = [.claim (.valve 2) .shut 0 .draw none]
      ∧ (drawChg c (drawing .working .opened)).drawStep.draw.set = [1]
      ∧ (drawChg { c with entering := [(1, .failed)] } (drawing .working .shut)).drawFinish.draw.chg = none
      ∧ ((drawChg leaves (two (drawing .working .opened))).drawFinish.draw.chg.map (fun g => (g.closing, g.claimed))) = some (true, [1])
      ∧ (drawChg leaves (two (drawing .working .shut))).drawFinish.draw.chg = none
      ∧ (drawChg { leaves with closing := true, claimed := [1] } (drawing .working .shut)).drawStep.draw.chg = none
      ∧ (drawChg { leaves with closing := true, claimed := [1] } (drawing .working .shutting)).drawStep
        = drawChg { leaves with closing := true, claimed := [1] } (drawing .working .shutting) := by decide +kernel

/-- Two entering outlets without a valve record: one OPEN is claimed on each and fails, and the changeover ends with both failed
(02 R30, 03 R75). -/
theorem test_each_entering_outlet_is_claimed_once :
    let s := drawing .working .shut
    let two := { s with
      valves := []
      holders := [1, 2].map fun n => (n, ⟨{ holderRec with outlet := 2 * n }, false, { HolderRt.initial holderRec with state := .working }⟩)
      draw := { s.draw with tab := ⟨[1, 2], 2⟩ } }
    let u := settle 1000 two.drawCall
    u.draw.chg = none ∧ u.desk.notices.map (fun n => (n.kind, n.subject)) = [(.orderFailed, .valve 2), (.orderFailed, .valve 4), (.drawDone, .none)]
      ∧ (u.desk.notices.map (·.detail)).getLast? = some (.one 2) := by decide +kernel

/-- A claimed leaving outlet that is STUCK already does not hold the changeover up (03 R75). -/
theorem test_a_changeover_ends_at_a_stuck_outlet :
    let s := drawChg ⟨[], [1], false, [], []⟩ (busyLines (drawing .low .stuck))
    let u := settle 1000 ({ s with draw := { s.draw with set := [1, 2] } } : State).drawFinish
    u.draw.chg = none ∧ (u.slot (.valve 2)).map (fun x => (x.state, x.code)) = some (.queued, .shut) := by decide +kernel

def boosterFailed : State := { inRun with boosters := [(1, { Booster.initial boosterRec false with state := .failed, cause := some .tripped })] }

theorem test_free_booster :
    Takes boosterFailed hd 30 ∧ boosterFailed.poolMode = .manual ∧ (boosterFailed.booster 1).map (fun x => (x.state, x.slot.state)) = some (.failed, .free)
      ∧ (inRun.booster 1).map (·.state) = some .free ∧ ((after (.freeBooster hd 1) boosterFailed).booster 1).map (·.state) = some .free
      ∧ told (after (.freeBooster hd 1) inRun) 30 .badState [] = true := by decide +kernel

def aRecord (n : Nat) : AccountRecord := { plant.recordOf none none with number := n }

def withRing : State := { plant with acct := { plant.acct with ring := [aRecord 7, aRecord 8] } }

theorem test_read_account :
    Takes withRing hd 32 ∧ Takes plant hd 32 ∧ plant.acct.ring = [] ∧ withRing.acct.ring[1]? = some (aRecord 8)
      ∧ told (after (.readAccount hd 128 0) withRing) 32 .bad [2, 2, 0, 7] = true
      ∧ told (after (.readAccount hd 127 5) withRing) 32 .bad [3, 2, 0, 7] = true
      ∧ told (after (.readAccount hd 127 4) withRing) 32 .notFound [2, 0, 7] = true
      ∧ told (after (.readAccount hd 127 4) plant) 32 .empty [0, 0, 0] = true
      ∧ told (after (.readAccount hd 1 4) withRing) 32 .done (accountPart (aRecord 8) 4 ++ [2, 0, 7]) = true
      ∧ told (after (.readAccount hd 65535 0) plant) 32 .done (accountPart (plant.recordOf none none) 0 ++ [0, 0, 0]) = true := by decide +kernel

theorem test_release_account :
    Takes withRing hd 33 ∧ Takes plant hd 33 ∧ told (after (.releaseAccount hd 7) withRing) 33 .done [1] = true
      ∧ told (after (.releaseAccount hd 8) withRing) 33 .stale [0, 7] = true ∧ told (after (.releaseAccount hd 7) plant) 33 .empty [] = true := by
  decide +kernel

/-! ### Desk telegrams to the field -/

/-- The first answer sent is this, to a telegram of tag 9. -/
def relayedBack (t : State) (code : Nat) (r : Result) (why : Option Reason) : Bool :=
  match t.desk.tx with
  | .answer 9 a c _ w _ :: _ => a == r && c == code && w == why
  | _ => false

/-- The last words of the answer at the front of the transmit queue. -/
def lastWords (t : State) : Option (List Nat) :=
  match t.desk.tx with
  | .answer _ _ _ _ _ (.words ws) :: _ => some ws
  | _ => none

def fullQ1 (s : State) : State :=
  let q := List.replicate 8 (⟨deskPoll 11, none⟩ : DeskCopy)
  { s with lines := ⟨{ s.lines.f1 with q1 := q }, { s.lines.f2 with q1 := q }, { s.lines.f3 with q1 := q }⟩ }

theorem test_desk_polls :
    let t := deskPoll 51
    let forced := { t with forced2 := true }
    Serves (busyLines plant) ∧ Serves plant ∧ forcedLines t = [] ∧ forcedLines forced = [.f2] ∧ plant.stationLine 51 = some .f1
      ∧ plant.stationLine 199 = none ∧ ((busyLines plant).line .f1).mode ≠ .idle ∧ (plant.line .f1).mode = .idle ∧ (plant.line .f1).selected = none
      ∧ 8 ≤ ((fullQ1 plant).line .f1).q1.length
      ∧ ((after (.deskPoll t) (busyLines plant)).line .f1).q1 = [⟨t, none⟩]
      ∧ ((after (.deskPoll t) plant).line .f1).selected = some (.copy ⟨t, none⟩)
      ∧ relayedBack (after (.deskPoll t) (fullQ1 plant)) 17 .busy none = true
      ∧ ((after (.deskPoll forced) (busyLines plant)).line .f2).q1 = [⟨forced, none⟩]
      ∧ (after (.deskPoll (deskPoll 199)) (busyLines plant)).relay.floods = [⟨0, 199, 9, [.f1, .f2, .f3], false⟩] := by decide +kernel

/-- A third valve, of no holder. -/
def lone (s : State) : State := { s with
  valves := s.valves ++ [(3, valveInitial ⟨3, 53, 120⟩ false)]
  dir := [(11, bound (.gauge 1)), (51, bound (.valve 1)), (52, bound (.valve 2)), (53, bound (.valve 3)), (101, bound (.governor 1)),
    (102, bound (.recorder 1)), (103, bound (.meter 1)), (151, bound (.booster 1))] }

def inCup (p : Option Parked) : State := busyLines (holderIs (fun r => { r with state := .cup, sighted := some .cup, park := p }) inRun)

theorem test_valve_orders :
    let s := lone (busyLines inRun)
    Serves s ∧ Serves (inCup none) ∧ s.bindingOf 53 = some (.valve 3) ∧ orderOfNum (orderWord (deskOrder 53 1)) = some .opn
      ∧ orderOfNum (orderWord (deskOrder 53 9)) = none ∧ s.gate 1 = some .out ∧ s.gate 3 = none ∧ s.valveHolder 3 = none
      ∧ (s.slot (.valve 3)).map (·.state) = some .free ∧ s.stationLine (s.valveStation 3) = some .f1 ∧ (s.line .f1).mode ≠ .idle
      ∧ (inCup none).gate 1 = none ∧ (inCup none).valveHolder 1 = some 1 ∧ ((inCup none).holder 1).map (·.rt.state) = some .cup
      ∧ relayedBack (after (.deskOrderBound (deskOrder 53 9)) s) 34 .bad none = true
      ∧ relayedBack (after (.deskOrderBound (deskOrder 51 1)) s) 34 .refused (some .out) = true
      ∧ ((after (.deskOrderBound (deskOrder 53 3)) s).line .f1).q0 = [.slot (.valve 3) 53]
      ∧ ((after (.deskOrderBound (deskOrder 51 1)) (inCup none)).holder 1).map (·.rt.park) = some (some ⟨1, .opn, 0, ⟨9, false, 51, [1#16]⟩, 60⟩)
      ∧ relayedBack (after (.deskOrderBound (deskOrder 51 1)) (inCup (some ⟨2, .opn, 0, ⟨1, false, 52, [1#16]⟩, 60⟩))) 34 .busy none = true := by decide +kernel

/-- Holder 1 in a state, with the rota and the draw mode as given: the gate of its inlet and of its outlet. -/
def gates (st : HState) (rota auto : Bool) : Option Reason × Option Reason :=
  let s := holderIs (fun r => { r with state := st }) inRun
  let u : State := { s with fill := { s.fill with running := rota }, draw := { s.draw with mode := if auto then .auto else .manual } }
  (u.gate 1, u.gate 2)

theorem test_the_desk_gate :
    let byHand : State := { (holderIs (fun r => { r with state := .low }) inRun) with
      valves := [(1, { valveInitial ⟨1, 51, 120⟩ false with localHand := true }), (2, { valveInitial ⟨2, 52, 120⟩ false with localHand := true })] }
    tblWf inRun.holders = true ∧ inRun.inletHolder 1 = some 1 ∧ inRun.outletHolder 1 = none ∧ inRun.inletHolder 2 = none
      ∧ inRun.outletHolder 2 = some 1 ∧ inRun.stationLine (inRun.valveStation 1) = some .f1 ∧ inRun.stationLine (inRun.valveStation 3) = none
      ∧ inRun.gate 3 = some .unknownStation ∧ (lone inRun).inletHolder 3 = none ∧ (lone inRun).outletHolder 3 = none
      ∧ [HState.top, .fault, .out, .blind, .grounded, .low, .working, .cup, .high].map (fun st => gates st true true)
        = [(some .top, some .drawOwns), (some .fault, some .fault), (some .out, some .out), (some .blind, some .blind),
          (some .rotaOwns, some .grounded), (some .rotaOwns, some .drawOwns), (some .rotaOwns, some .drawOwns),
          (some .rotaOwns, some .drawOwns), (some .rotaOwns, some .drawOwns)]
      ∧ gates .top false false = (some .top, none) ∧ gates .grounded false false = (none, some .grounded) ∧ gates .low false false = (none, none)
      ∧ byHand.gate 1 = some .localHand ∧ byHand.gate 2 = some .localHand := by decide +kernel

/-- A claim of a SHUT by the desk or the top guard, or of an OPEN, on the slot of valve 1. -/
def claimed (sl : Slot) (c : OrderCode) (o : Origin) : State :=
  (({ busyLines plant with valves := [(1, { valveInitial ⟨1, 51, 120⟩ false with state := .opening, slot := sl })] } : State)).claim
    (.valve 1) c 0 o (if o = .desk then some ⟨9, false, 51, [2#16]⟩ else none)

/-- A slot of the fill unit's. -/
def fillHolds (st : SlotState) (c : OrderCode) : Slot := { Slot.free with state := st, code := c, origin := .fill }

/-- State, code, origin and the follow-up's origin of the slot of valve 1. -/
def slotNow (s : State) : Option (SlotState × OrderCode × List Origin) :=
  (s.slot (.valve 1)).map fun sl => (sl.state, sl.code, sl.origin :: (sl.followUp.map (·.origin)).toList)

theorem test_claims_on_a_valve_slot :
    [claimed Slot.free .shut .desk, claimed (fillHolds .queued .opn) .shut .autoTop, claimed (fillHolds .sent .opn) .shut .desk,
        claimed (fillHolds .travel .opn) .shut .autoTop, claimed (fillHolds .travel .shut) .shut .autoTop].map slotNow
      = [some (.queued, .shut, [.desk]), some (.queued, .shut, [.autoTop]), some (.sent, .opn, [.fill, .desk]),
        some (.queued, .shut, [.autoTop]), some (.travel, .shut, [.fill])] := by decide +kernel

theorem test_what_claims_answer_and_hand_on :
    (plant.holders.all fun p => p.2.rt.park.isNone) = true ∧ (busyLines plant).stationLine (plant.valveStation 1) = some .f1
      ∧ ((claimed Slot.free .opn .fill).line .f1).q0 = [.slot (.valve 1) 51]
      ∧ relayedBack (claimed (fillHolds .sent .shut) .opn .desk) 34 .busy none = true
      ∧ (claimed (fillHolds .queued .opn) .opn .draw).desk.tx = []
      ∧ relayedBack (claimed (fillHolds .travel .shut) .shut .desk) 34 .done none = true
      ∧ [claimed (fillHolds .queued .opn) .shut .autoTop, claimed { fillHolds .sent .opn with followUp := some ⟨.draw, none⟩ } .shut .autoTop,
          claimed (fillHolds .travel .opn) .shut .autoTop].map (·.handoffs)
        = [[.outcome (.valve 1) .opn .fill none .superseded], [.outcome (.valve 1) .shut .draw none .superseded],
          [.outcome (.valve 1) .opn .fill none .superseded, .valveTold 1 false true]] := by decide +kernel

/-- The order a valve's slot holds, with its origin. -/
def shutOf (v : Nat) (s : State) : Option (OrderCode × Origin) :=
  match s.slot (.valve v) with
  | some sl => if sl.state = .free then none else some (sl.code, sl.origin)
  | none => none

theorem test_a_desk_shut_passes_and_sets_the_bar :
    let s := busyLines inRun
    let rota := { s with fill := { s.fill with running := true } }
    let auto := { s with draw := { s.draw with mode := .auto } }
    let bars (t : State) := (t.holder 1).map fun x => (x.rt.fillBar, x.rt.drawBar)
    let shut (n : Nat) (s : State) := after (.deskOrderBound (deskOrder n 2)) s
    Serves s ∧ Serves rota ∧ Serves auto ∧ s.bindingOf 51 = some (.valve 1) ∧ orderOfNum (orderWord (deskOrder 51 2)) = some .shut
      ∧ s.stationLine 51 = some .f1 ∧ (s.slot (.valve 1)).map (·.state) = some .free ∧ s.fill.running = false ∧ s.drawMode ≠ .auto
      ∧ bars (shut 51 s) = some (false, false) ∧ shutOf 1 (shut 51 s) = some (.shut, .desk) ∧ ((shut 51 s).line .f1).q0 = [.slot (.valve 1) 51]
      ∧ bars (shut 51 rota) = some (true, false) ∧ shutOf 1 (shut 51 rota) = some (.shut, .desk)
      ∧ bars (shut 52 auto) = some (false, true) ∧ shutOf 2 (shut 52 auto) = some (.shut, .desk)
      ∧ shutOf 3 (shut 53 (lone s)) = some (.shut, .desk) := by decide +kernel

/-- What the ANSWERs behind the first `n` telegrams of the transmit queue say: tag, result and request. -/
def answersBehind (n : Nat) (t : State) : List (Nat × Result × Nat) :=
  (t.desk.tx.drop n).filterMap fun o => match o with
    | .answer tag r c _ _ _ => some (tag, r, c)
    | _ => none

/-- With room for one telegram more, the desk telegram being served has it: the order parked on the inlet is dropped and counted. With
room for two, both ANSWERs enter. -/
theorem test_the_served_telegram_finds_room :
    let parked (s : State) := holderIs (fun r => { r with state := .cup, sighted := some .cup, park := some ⟨1, .opn, 0, ⟨1, false, 51, [1#16]⟩, 60⟩ }) s
    let joins := { busyLines (parked inRun) with valves := [(1, { valveInitial ⟨1, 51, 120⟩ false with slot := queuedSlot .shut })] }
    let shut (n : Nat) := after (.deskOrderBound (deskOrder 51 2)) (withTx n joins)
    let removed (n : Nat) := after (.removeRecord hd 1 1) (withTx n (parked plant))
    (joins.slot (.valve 1)).map (fun x => (x.state, x.code)) = some (.queued, .shut) ∧ joins.holders.map (·.1) = [1]
      ∧ Serves (withTx 23 joins) ∧ Takes (withTx 23 (parked plant)) hd 2 ∧ answerRoom true = 23 ∧ answerRoom false = 24
      ∧ answersBehind 23 (shut 23) = [(9, .done, 34)] ∧ answersBehind 22 (shut 22) = [(9, .done, 34), (1, .superseded, 34)]
      ∧ answersBehind 23 (removed 23) = [(5, .done, 2)] ∧ answersBehind 22 (removed 22) = [(1, .superseded, 34), (5, .done, 2)]
      ∧ [shut 23, removed 23, shut 22, removed 22].map (·.desk.counters.deskDrops) = [1, 1, 0, 0]
      ∧ [shut 23, removed 23].map (fun t => (t.holder 1).map (·.rt.park)) = [some none, none] := by decide +kernel

/-- Two holders have orders parked for valve 1, the first rewritten since to name other valves; a third has one for valve 2. A desk SHUT
of valve 1 that takes its FREE slot, or joins the SHUT there, answers the first two orders and leaves the third. -/
theorem test_a_shut_answers_every_order_parked_for_its_valve :
    let order (v n : Nat) : Parked := ⟨v, .opn, 0, ⟨n, false, 50 + v, [1#16]⟩, 60⟩
    let holder (inlet outlet : Nat) (p : Parked) : Holder :=
      ⟨{ holderRec with inlet := inlet, outlet := outlet }, false, { HolderRt.initial holderRec with state := .cup, sighted := some .cup, park := some p }⟩
    let s := { busyLines inRun with holders := [(1, holder 3 4 (order 1 1)), (2, holder 1 2 (order 1 2)), (3, holder 5 6 (order 2 3))] }
    let joins := { s with valves := [(1, { valveInitial ⟨1, 51, 120⟩ false with slot := queuedSlot .shut })] }
    let parks (t : State) := t.holders.map fun p => p.2.rt.park.map (·.tag.num)
    let t := after (.deskOrderBound (deskOrder 51 2)) s
    let u := after (.deskOrderBound (deskOrder 51 2)) joins
    Serves s ∧ Serves joins ∧ s.inletHolder 1 = some 2 ∧ s.fill.running = false ∧ (s.slot (.valve 1)).map (·.state) = some .free
      ∧ s.stationLine (s.valveStation 1) = some .f1 ∧ (s.line .f1).mode ≠ .idle ∧ parks s = [some 1, some 2, some 3]
      ∧ answersBehind 0 t = [(1, .superseded, 34), (2, .superseded, 34)] ∧ parks t = [none, none, some 3] ∧ shutOf 1 t = some (.shut, .desk)
      ∧ answersBehind 0 u = [(9, .done, 34), (1, .superseded, 34), (2, .superseded, 34)] ∧ parks u = [none, none, some 3] := by
  decide +kernel

theorem test_orders_of_roles_and_states :
    let s := busyLines (holderIs (fun r => { r with state := .working, sighted := some .working }) inRun)
    orderAdmitted (.valve 1) .raise = false ∧ orderAdmitted (.governor 1) .opn = false ∧ orderAdmitted (.booster 1) .halt = false
      ∧ orderOfNum (orderWord (deskOrder 51 4)) = some .raise ∧ relayedBack (after (.deskOrderBound (deskOrder 51 4)) s) 34 .bad none = true
      ∧ Serves s ∧ s.gate 1 = none ∧ s.valveHolder 1 = some 1 ∧ (s.holder 1).map (·.rt.state) = some .working
      ∧ (s.slot (.valve 1)).map (·.state) = some .free ∧ ((after (.deskOrderBound (deskOrder 51 1)) s).line .f1).q0 = [.slot (.valve 1) 51] := by
  decide +kernel

theorem test_a_shut_of_an_unlocated_valve :
    let s := { inRun with dir := [(51, { bound (.valve 1) with line := none })] }
    Serves s ∧ s.bindingOf 51 = some (.valve 1) ∧ orderOfNum (orderWord (deskOrder 51 2)) = some .shut ∧ s.stationLine 51 = none
      ∧ relayedBack (after (.deskOrderBound (deskOrder 51 2)) s) 34 .refused (some .unknownStation) = true := by decide +kernel

theorem test_governor_and_booster_orders :
    let s := busyLines inRun
    let manual := { s with districts := [(1, ⟨{ districtRec with auto := false }, false, DistrictRt.initial districtRec false, Slot.free⟩)] }
    let auto := { s with pool := { s.pool with mode := .auto } }
    Serves s ∧ Serves manual ∧ Serves auto ∧ s.bindingOf 101 = some (.governor 1) ∧ s.bindingOf 151 = some (.booster 1)
      ∧ orderOfNum (orderWord (deskOrder 101 4)) = some .raise ∧ orderOfNum (orderWord (deskOrder 151 7)) = some .stop
      ∧ auto.poolMode = .auto ∧ s.poolMode = .manual ∧ (s.booster 1).map holdsDistrict = some false
      ∧ relayedBack (after (.deskOrderBound (deskOrder 101 4)) s) 34 .refused (some .districtAuto) = true
      ∧ ((after (.deskOrderBound (deskOrder 101 4)) manual).line .f1).q0 = [.slot (.governor 1) 101]
      ∧ relayedBack (after (.deskOrderBound (deskOrder 151 7)) auto) 34 .refused (some .poolOwns) = true
      ∧ ((after (.deskOrderBound (deskOrder 151 7)) s).line .f1).q0 = [.slot (.booster 1) 151] := by decide +kernel

def districtIs (f : DistrictRt → DistrictRt) (s : State) : State :=
  { s with districts := [(1, ⟨districtRec, false, f { DistrictRt.initial districtRec false with state := .tracking, last := some ⟨150, 0, 0, false⟩ }, Slot.free⟩)] }

def startOf (d : Nat) : DeskTelegram := { deskOrder 151 6 with body := [6#16, wordOf d] }

theorem test_starts_and_stops_by_the_desk :
    let manual := busyLines (districtIs id inRun)
    let auto := { manual with pool := { manual.pool with mode := .auto } }
    let runs := { manual with boosters := [(1, { Booster.initial boosterRec false with state := .running, district := some 1 })] }
    orderOfNum (orderWord (startOf 1)) = some .start ∧ argWord (startOf 0) = 0 ∧ argWord (startOf 9) = 9 ∧ Serves manual ∧ Serves runs
      ∧ relayedBack (after (.deskOrderBound (startOf 0)) manual) 34 .bad none = true
      ∧ relayedBack (after (.deskOrderBound (startOf 9)) manual) 34 .bad none = true
      ∧ relayedBack (after (.deskOrderBound (startOf 8)) auto) 34 .refused (some .poolOwns) = true
      ∧ relayedBack (after (.deskOrderBound (startOf 1)) runs) 34 .badState none = true
      ∧ manual.district 8 = none ∧ relayedBack (after (.deskOrderBound (startOf 8)) manual) 34 .conflict none = true
      ∧ (plant.district 1).map (·.rt.state) = some .out ∧ relayedBack (after (.deskOrderBound (startOf 1)) (busyLines plant)) 34 .conflict none = true
      ∧ manual.heldBy 1 = none
      ∧ ((after (.deskOrderBound (startOf 1)) manual).booster 1).map (fun x => (x.state, x.district)) = some (.starting, some 1)
      ∧ ((after (.deskOrderBound (deskOrder 151 7)) runs).booster 1).map (fun x => (x.state, x.district)) = some (.stopping, none) := by decide +kernel

def unbound199 : State := { busyLines plant with dir := plant.dir ++ [(199, freshEntry (some .f3) .static none true 0#12)] }

theorem test_unbound_orders :
    let most := { unbound199 with relay := { unbound199.relay with allowance := 4 } }
    Serves unbound199 ∧ Serves most ∧ unbound199.bindingOf 199 = none ∧ unbound199.stationLine 199 = some .f3 ∧ unbound199.stationLine 198 = none
      ∧ (unbound199.line .f3).mode ≠ .idle ∧ 4 ≤ most.relay.allowance
      ∧ relayedBack (after (.deskOrderUnbound (deskOrder 199 16)) unbound199) 34 .bad none = true
      ∧ relayedBack (after (.deskOrderUnbound (deskOrder 198 1)) unbound199) 34 .refused (some .unknownStation) = true
      ∧ relayedBack (after (.deskOrderUnbound (deskOrder 199 15)) most) 34 .refused (some .allowance) = true
      ∧ ((after (.deskOrderUnbound (deskOrder 199 1)) unbound199).line .f3).q0 = [.desk (deskOrder 199 1)]
      ∧ (after (.deskOrderUnbound (deskOrder 199 1)) unbound199).relay.allowance = 1 := by decide +kernel

theorem test_group_telegrams :
    let s := busyLines plant
    Serves s ∧ s.groupLines (deskPoll 200) = [] ∧ forcedLines (deskPoll 200) = [] ∧ (s.line .f1).q1.length < 8 ∧ (s.line .f2).mode ≠ .idle
      ∧ relayedBack (after (.deskGroupTelegram (deskOrder 211 7)) s) 34 .refused (some .groupOrder) = true
      ∧ relayedBack (after (.deskGroupTelegram (deskPoll 200)) s) 17 .refused (some .unknownStation) = true
      ∧ ((after (.deskGroupTelegram (deskOrder 255 8)) s).line .f3).q1 = [⟨deskOrder 255 8, none⟩]
      ∧ ((after (.deskGroupTelegram (deskPoll 255)) s).line .f1).q1 = [⟨deskPoll 255, none⟩] := by decide +kernel

theorem test_a_group_telegram_goes_to_the_lines_of_its_group :
    let s := { fullQ1 plant with dir := [(11, { bound (.gauge 1) with groups := 0x800#12 })] }
    s.groupLines (deskPoll 211) = [.f1] ∧ 8 ≤ (s.line .f1).q1.length ∧ s.groupLines { deskPoll 211 with forced3 := true } = [.f3]
      ∧ forcedLines { deskPoll 211 with forced3 := true } ≠ [] ∧ Serves s
      ∧ relayedBack (after (.deskGroupTelegram (deskPoll 211)) s) 17 .busy none = true := by decide +kernel

/-! ### Exchanges -/

def pollOf (station : Nat) : PartPoll := ⟨station, 1, 2, false, false, false, false, 0⟩

def withF2 (f : LineUnit → LineUnit) (s : State) : State := { s with lines := { s.lines with f2 := f s.lines.f2 } }

def sentPoll (station : Nat) : Telegram := ⟨station, 0, .poll, true, false, 255, none, []⟩

def exchangeWith (station left : Nat) (due : Bool) : Exchange :=
  ⟨station, 255, .report, .poll (pollOf station), sentPoll station, 1, 2, left, if due then none else some 80, due, .noResponse, false⟩

def awaits (left : Nat) (due : Bool) (s : State) : State :=
  withF2 (fun u => { u with mode := .awaiting, tag := 0, exch := some (exchangeWith 11 left due) }) s

theorem test_transmissions :
    let ready := withF2 (fun u => { u with selected := some (.poll (pollOf 11)), tag := 255 }) plant
    let sends := withF2 (fun u => { u with mode := .sending, sending := some (.poll (pollOf 11), sentPoll 11), tag := 255 }) plant
    let again := withF2 (fun u => { u with mode := .sending, sending := some (.poll (pollOf 11), sentPoll 11) }) (awaits 1 false plant)
    let hears := withF2 (fun u => { u with receiving := true }) ready
    Settled ready ∧ (ready.line .f2).mode = .idle ∧ (sends.line .f2).exch = none ∧ sends.watchClass 11 = none ∧ (again.line .f2).exch.isSome = true
      ∧ ((after (.fieldSendStart .f2) ready).line .f2).sending = some (.poll (pollOf 11), sentPoll 11)
      ∧ ((after (.fieldSendStart .f2) (awaits 2 true plant)).line .f2).exch = some { exchangeWith 11 1 true with repeatDue := false }
      ∧ gives (exec (.fieldSendStart .f2) hears) hears = true
      ∧ ((after (.fieldSendEnd .f2) sends).line .f2).exch = some (exchangeWith 11 2 false) ∧ ((after (.fieldSendEnd .f2) sends).line .f2).tag = 0
      ∧ ((after (.fieldSendEnd .f2) again).line .f2).mode = .awaiting ∧ gives (exec (.fieldSendEnd .f2) ready) ready = true := by decide +kernel

def selects (o : Outgoing) (s : State) : State := withF2 (fun u => { u with selected := some o, tag := 3 }) s

theorem test_orders_and_desk_telegrams_are_sent :
    let ordered := selects (.order (.valve 1) 51) { inRun with valves := [(1, { valveInitial ⟨1, 51, 120⟩ false with slot := queuedSlot .shut })] }
    let slotOfDesk : Slot := { queuedSlot .opn with origin := .desk, tag := some ⟨9, false, 51, [1#16, 7#16, 8#16]⟩ }
    let byDesk := selects (.order (.valve 1) 51) { inRun with valves := [(1, { valveInitial ⟨1, 51, 120⟩ false with slot := slotOfDesk })] }
    let copied := selects (.copy ⟨deskPoll 199, none⟩) plant
    let called := selects (.copy ⟨deskPoll 255, none⟩) plant
    let loose := selects (.unbound (deskOrder 199 9)) plant
    let sent (s : State) := after (.fieldSendStart .f2) s
    let awaited (s : State) := (((after (.fieldSendEnd .f2) (sent s)).line .f2).exch).map fun e => (e.expected, e.tag, e.retries)
    (ordered.slot (.valve 1)).map (·.code) = some .shut ∧ ((sent ordered).slot (.valve 1)).map (·.state) = some .sent
      ∧ ((sent ordered).line .f2).sending = some (.order (.valve 1) 51, ⟨51, 0, .order, true, false, 3, none, [2#16, 0#16]⟩)
      ∧ ((sent byDesk).line .f2).sending = some (.order (.valve 1) 51, ⟨51, 0, .order, true, false, 9, none, [1#16, 7#16, 8#16]⟩)
      ∧ awaited ordered = some (.orderAck, 3, 2) ∧ awaited loose = some (.orderAck, 9, 2) ∧ plant.enabledPoll 199 = none
      ∧ awaited copied = some (.report, 9, 1) ∧ awaited (selects (.copy ⟨deskPoll 51, none⟩) plant) = some (.report, 9, 0)
      ∧ awaited (selects (.copy ⟨deskOrder 199 9, none⟩) plant) = some (.orderAck, 9, 2) ∧ plant.watchClass 199 = none
      ∧ ((after (.fieldSendEnd .f2) (sent called)).line .f2).mode = .idle := by decide +kernel

theorem test_a_line_selects_by_turns :
    let u := plant.lines.f2
    let both := { u with q1 := [⟨deskPoll 199, none⟩], q2 := [pollOf 11] }
    let copy : Option Outgoing := some (.copy ⟨deskPoll 199, none⟩)
    let poll : Option Outgoing := some (.poll (pollOf 11))
    (lineSet u).w1 = 2 ∧ (lineSet u).w2 = 1 ∧ wakeUnit u = u ∧ (wakeUnit { both with q0 := [.desk (deskOrder 199 9)] }).selected = some (.unbound (deskOrder 199 9))
      ∧ (wakeUnit { both with owner := .q1, turns := 1 }).selected = copy ∧ (wakeUnit { both with owner := .q1, turns := 2 }).selected = poll
      ∧ (wakeUnit { both with owner := .q2, turns := 0 }).selected = poll ∧ (wakeUnit { both with owner := .q2, turns := 1 }).selected = copy
      ∧ (wakeUnit { both with q2 := [], owner := .q1, turns := 2 }).turns = 1 ∧ (wakeUnit { both with q1 := [], owner := .q2, turns := 1 }).turns = 1
      ∧ wakeUnit { both with selected := poll } = { both with selected := poll } := by decide +kernel

def failing (fails : Nat) (first : Option Nat) (second : Bool) : State :=
  withF2 (fun u => { u with fails := fails, first := first, second := second }) (awaits 1 false plant)

theorem test_failed_attempts :
    let wrong := fieldTel 11 .orderAck 255 [0]
    Settled (failing 11 (some 51) false) ∧ ((failing 0 none false).line .f2).quarantined = false
      ∧ receive false noise = none ∧ receive false (good wrong) = some wrong ∧ answersExchange (exchangeWith 11 1 false) wrong = true
      ∧ ¬ (wrong.kind = .report ∧ rightForm wrong.kind wrong.body = true)
      ∧ ((after (.attemptDeadlineExpiry .f2) (failing 0 none false)).line .f2).exch
        = some { exchangeWith 11 1 false with deadline := none, repeatDue := true }
      ∧ ((after (.attemptDeadlineExpiry .f2) (failing 11 (some 51) false)).line .f2).quarantined = true
      ∧ ((after (.attemptDeadlineExpiry .f2) (failing 11 (some 11) false)).line .f2).quarantined = false
      ∧ ((after (.lineError (.field .f2) noise) (failing 0 none false)).line .f2).exch
        = some { exchangeWith 11 1 false with deadline := none, repeatDue := true, last := .format }
      ∧ ((after (.replyNotOfRightForm .f2 (good wrong)) (failing 0 none false)).line .f2).exch
        = some { exchangeWith 11 1 false with deadline := none, repeatDue := true, last := .format }
      ∧ (let late := withF2 (fun u => { u with exch := some { exchangeWith 11 1 false with deadline := none } }) (awaits 1 false plant)
        gives (exec (.attemptDeadlineExpiry .f2) late) late = true) := by decide +kernel

/-- The strays and telegrams in that a telegram of the wrong kind or form leaves counted, and what it does to the attempt. -/
def wrongLeaves (due : Bool) (t : Telegram) : Nat × Nat × Option (AttemptFailure × Bool) :=
  let u := (after (.replyNotOfRightForm .f2 (good t)) (awaits 1 due plant)).line .f2
  (u.counters.strays, u.counters.telegramsIn, u.exch.map fun e => (e.last, e.repeatDue))

/-- A telegram of the awaited station and tag that R143 names a stray counts as one and fails the attempt besides (R146), but for one
that comes while a repeat is due. -/
theorem test_a_stray_of_the_exchange_fails_the_attempt :
    let toOutstation := { fieldTel 11 .orderAck 255 [0] with dest := 51 }
    let ofOtherKind := fieldTel 11 .poll 255 []
    [toOutstation, ofOtherKind].all (fun t => receive false (good t) == some t && answersExchange (exchangeWith 11 1 false) t) = true
      ∧ wrongLeaves false toOutstation = (1, 1, some (.format, true)) ∧ wrongLeaves false ofOtherKind = (1, 1, some (.format, true))
      ∧ wrongLeaves false (fieldTel 11 .orderAck 255 [0]) = (0, 1, some (.format, true)) := by decide +kernel

theorem test_no_attempt_fails_while_a_repeat_is_due :
    let ofOtherKind := fieldTel 11 .poll 255 []
    wrongLeaves true ofOtherKind = (1, 1, some (.noResponse, true)) ∧ wrongLeaves true (fieldTel 11 .report 255 []) = (0, 1, some (.noResponse, true))
      ∧ ((after (.lineError (.field .f2) noise) (awaits 1 true plant)).line .f2).counters.lineErrors = 1
      ∧ ((after (.lineError (.field .f2) noise) (awaits 1 true plant)).line .f2).exch = some (exchangeWith 11 1 true) := by decide +kernel

theorem test_an_exchange_ends_with_its_last_attempt :
    let last := awaits 0 false plant
    let copy (f : Option Nat) : DeskCopy := ⟨deskPoll 11, f⟩
    let flood (ls : List FLine) (replied : Bool) : State := { plant with relay := { plant.relay with floods := [⟨4, 11, 9, ls, replied⟩] } }
    let failures (s : State) := (s.entry 11).map (·.failures)
    (last.line .f2).exch = some (exchangeWith 11 0 false) ∧ ((after (.attemptDeadlineExpiry .f2) last).line .f2).exch = none
      ∧ ((after (.attemptDeadlineExpiry .f2) last).line .f2).mode = .idle ∧ failures (after (.attemptDeadlineExpiry .f2) last) = some 1
      ∧ failures (after (.lineError (.field .f2) noise) last) = some 1 ∧ failures (plant.copyFailed .f2 (copy none) .noResponse) = some 1
      ∧ (flood [.f2] false).flood 4 = some ⟨4, 11, 9, [.f2], false⟩
      ∧ failures ((flood [.f2] false).copyFailed .f2 (copy (some 4)) .noResponse) = some 1
      ∧ failures ((flood [.f2] true).copyFailed .f2 (copy (some 4)) .noResponse) = some 0
      ∧ failures ((flood [.f1, .f2] false).copyFailed .f2 (copy (some 4)) .noResponse) = some 0 := by decide +kernel

theorem test_a_quarantined_line_counts_no_more :
    let s := withF2 (fun u => { u with quarantined := true }) (failing 12 (some 51) true)
    (s.line .f2).quarantined = true ∧ s.failAttempt .f2 11 = s := by decide +kernel

def slotIs (sl : Slot) (st : VState) (s : State) : State :=
  { s with valves := [(1, { valveInitial ⟨1, 51, 120⟩ false with slot := sl, state := st }), (2, valveInitial ⟨2, 52, 120⟩ false)] }

/-- An order of valve 1 under way. -/
def sentSlot (c : OrderCode) : Slot := { Slot.free with state := .sent, code := c }
def travelSlot (c : OrderCode) : Slot := { Slot.free with state := .travel, code := c, deadline := some 150 }

theorem test_order_acks :
    let ends (c : OrderCode) (e : OrderEnd) := ((slotIs (sentSlot c) .halted (busyLines plant)).orderEnded (.valve 1) e).valve 1
    let shown (x : Option Valve) := x.map fun x => (x.state, x.slot.state)
    let turned := { sentSlot .opn with followUp := some ⟨.fill, none⟩ }
    shown (ends .shut (.ack .accepted)) = some (.shutting, .travel) ∧ shown (ends .opn (.ack .accepted)) = some (.opening, .travel)
      ∧ (busyLines plant).stationLine ((busyLines plant).valveStation 1) = some .f1 ∧ ((busyLines plant).line .f1).mode ≠ .idle
      ∧ shown (((slotIs turned .shut (busyLines plant)).orderEnded (.valve 1) (.ack .accepted)).valve 1) = some (.shutting, .queued)
      ∧ shown (ends .halt (.ack .accepted)) = some (.halted, .free) ∧ shown (ends .opn (.ack .done)) = some (.opened, .free)
      ∧ shown (ends .shut (.ack .done)) = some (.shut, .free) ∧ (ends .opn (.ack .refusedLocal)).map (·.localHand) = some true
      ∧ shown (ends .opn (.ack .refusedFault)) = some (.halted, .free) ∧ shown (ends .opn .noReply) = some (.halted, .free) := by decide +kernel

theorem test_valve_reports_and_checks :
    let moving := slotIs (travelSlot .opn) .opening plant
    let asked := slotIs { travelSlot .opn with checkPending := true } .opening plant
    let shown (s : State) := (s.valve 1).map fun x => (x.state, x.slot.state)
    valveSample [0#16, 1#16] = some .opened ∧ valveSample [0#16, 0#16] = some .shut ∧ valveSample [1#16, 0#16] = none
      ∧ shown (moving.valveReport 1 [0#16, 1#16]) = some (.opened, .free) ∧ shown (moving.valveReport 1 [0#16, 0#16]) = some (.opening, .travel)
      ∧ shown ((slotIs (travelSlot .shut) .shutting plant).valveReport 1 [0#16, 0#16]) = some (.shut, .free)
      ∧ shown ((slotIs Slot.free .stuck plant).valveReport 1 [0#16, 2#16]) = some (.stuck, .free)
      ∧ shown ((slotIs Slot.free .shut plant).valveReport 1 [0#16, 2#16]) = some (.halted, .free)
      ∧ shown (moving.judgeCheck 1 none) = some (.opening, .travel) ∧ shown (asked.judgeCheck 1 none) = some (.unknown, .free)
      ∧ shown (asked.judgeCheck 1 (some .opened)) = some (.opened, .free) ∧ shown (asked.judgeCheck 1 (some .shut)) = some (.stuck, .free) := by
  decide +kernel

theorem test_replies_and_alerts :
    let t := fieldTel 11 .report 255 [0, 6200]
    let a := fieldTel 199 .alert 3 [0]
    let stray := fieldTel 11 .report 3 [0]
    let chatty := withF2 (fun u => { u with alerts := 16 }) plant
    Settled (awaits 1 false inRun) ∧ receive false (good t) = some t ∧ answersExchange (exchangeWith 11 1 false) t = true
      ∧ rightForm .report t.body = true ∧ (plant.line .f2).mode ≠ .sending ∧ receive false (good a) = some a ∧ receive false (good stray) = some stray
      ∧ fieldClass (plant.line .f2) a = .alert ∧ fieldClass (plant.line .f2) stray = .stray ∧ fieldClass (chatty.line .f2) a = .alert
      ∧ (plant.line .f2).alerts + 1 ≤ (plant.line .f2).budget ∧ (chatty.line .f2).budget < (chatty.line .f2).alerts + 1
      ∧ ((after (.fieldReplyTaken .f2 (good t)) (awaits 1 false inRun)).line .f2).exch = none
      ∧ ((after (.fieldReplyTaken .f2 (good t)) (awaits 1 false inRun)).holder 1).map (·.rt.height) = some (some ⟨6200, 0, 0, false⟩)
      ∧ ((after (.fieldAlertReceived .f2 (good a)) plant).line .f2).alerts = 1
      ∧ ((after (.fieldAlertReceived .f2 (good a)) chatty).line .f2).counters.chatter = 1
      ∧ ((after (.fieldStray .f2 (good stray)) plant).line .f2).counters.strays = 1
      ∧ ((after (.chatterWindowExpiry .f2) { chatty with elapsed := 10 }).line .f2).alerts = 0
      ∧ gives (exec (.chatterWindowExpiry .f2) { chatty with elapsed := 9 }) { chatty with elapsed := 9 } = true := by decide +kernel

theorem test_learning_of_stations :
    let away := { plant with dir := [(11, { bound (.gauge 1) with line := some .f1, heard := false }), (51, { bound (.valve 1) with line := none })] }
    let p := { pollOf 11 with search := true }
    let queued (q : List PartPoll) : State := { busyLines plant with lines := { (busyLines plant).lines with f1 := { (busyLines plant).lines.f1 with q2 := q } } }
    away.entry 199 = none ∧ away.learn true .f2 199 = away ∧ ((away.learn false .f2 199).entry 199).map (·.kind) = some .learned
      ∧ (fullDirectory.learn false .f2 199).relay.dirFull = 1 ∧ ((away.learn true .f1 11).entry 11).map (·.heard) = some true
      ∧ away.learn true .f2 11 = away ∧ ((away.learn false .f2 51).entry 51).map (·.line) = some (some .f2)
      ∧ ((away.learn false .f2 11).entry 11).map (·.line) = some (some .f2) ∧ (away.learn false .f2 11).desk.notices.map (·.kind) = [.stationMoved]
      ∧ (((queued [pollOf 11]).moveQueued 11 .f1 .f2).line .f2).q2 = [pollOf 11] ∧ (((queued []).moveQueued 11 .f1 .f2).line .f2).q2 = []
      ∧ (((queued [p, pollOf 51]).gatherPolls 11 .f2).line .f1).q2 = [pollOf 51] := by decide +kernel

/-! ### Samples and standing -/

theorem test_gauge_samples :
    (plant.holder 1).map (·.rt.causes.record) = some false
      ∧ ((plant.usableSample 1 ⟨holderRec, false, HolderRt.initial holderRec⟩ 6200).holder 1).map (fun y => (y.rt.stock, y.rt.lifts, y.rt.pressure))
        = some (1364, 1, 60)
      ∧ { holderRec with lifts := 1 }.lifts = 1 ∧ stockAt { holderRec with lifts := 1 } 9001 = holderRec.lift1.capacity * 9000 / 1000 := by
  decide +kernel

/-- A holder of four lifts, 9 000, 9 000, 5 000 and 1 000 mm. -/
def tallRec : HolderRec := { holderRec with lifts := 4, lift3 := ⟨5000, 100, 40⟩, lift4 := ⟨1000, 50, 30⟩, highWarning := 23500, topLimit := 23900 }

theorem test_the_geometry_of_lifts :
    holderRec.lifts = 2 ∧ tallRec.lifts = 4 ∧ [9149, 9150, 18149, 18150, 23149, 23150].map (liftsAfloat tallRec) = [1, 2, 2, 3, 3, 4]
      ∧ [0, 1, 2, 3, 4].map (pressureOf tallRec) = [0, 60, 105, 145, 175]
      ∧ [0, 9000, 10000, 18000, 18010, 24000].map (stockAt tallRec) = [0, 1980, 2220, 4140, 4141, 4690] := by decide +kernel

theorem test_the_sighted_state :
    [99, 100, 1999, 2000, 8849, 8850, 9149, 9150, 15999].map (sightedAt holderRec none)
      = [(.grounded, 0), (.low, 0), (.low, 0), (.working, 0), (.working, 0), (.cup, 1), (.cup, 1), (.working, 0), (.working, 0)]
      ∧ [16000, 16999, 17000].map (sightedAt holderRec (some .high)) = [(.high, 0), (.high, 0), (.top, 0)]
      ∧ [16000, 16699, 16700, 17000].map (sightedAt holderRec (some .top)) = [(.high, 0), (.high, 0), (.top, 0), (.top, 0)]
      ∧ [8850, 17850, 18149, 23000].map (sightedAt tallRec none) = [(.cup, 1), (.cup, 2), (.cup, 2), (.cup, 3)] := by decide +kernel

/-- Rate and motion after a sample at second 2 000 from a rate base held with rate 7. -/
def rated (base : Option (Nat × Nat)) (mm : Nat) : Option (Int × Motion) :=
  let x : Holder := ⟨holderRec, false, { HolderRt.initial holderRec with rateBase := base, rate := 7 }⟩
  ((({ plant with elapsed := 2000, holders := [(1, x)] } : State).usableSample 1 x mm).holder 1).map fun y => (y.rt.rate, y.rt.motion)

theorem test_the_rate :
    [none, some (6000, 199), some (6000, 200), some (6000, 1990), some (6000, 1991), some (6601, 1940), some (6000, 1930),
        some (6700, 1940)].map (rated · 6600)
      = [some (0, .still), some (0, .still), some (20, .rising), some (3600, .rising), some (7, .still), some (-1, .still),
        some (514, .rising), some (-100, .falling)] := by decide +kernel

def meterIs (f : Meter → Meter) : State := { plant with meters := [(1, f { Meter.initial with station := some 103, weight := 150 })] }

theorem test_meter_samples :
    let body := [0#16, 0#16, 60#16]
    meterSample body = some 60 ∧ meterSample [0#16, 256#16, 0#16] = none ∧ (meterIs fun m => { m with lost := true }).meterReport 1 body = (meterIs fun m => { m with lost := true })
      ∧ (((meterIs fun m => { m with damaged := true }).meterReport 1 body).meter 1).carry = true
      ∧ (((meterIs id).meterReport 1 body).meter 1).last = some 60
      ∧ (((meterIs fun m => { m with last := some 61 }).meterReport 1 body).meter 1).rejected = 16777215
      ∧ (partOf ((meterIs fun m => { m with last := some 20, residue := 50 }).meterReport 1 body).acct.openAcct 1).map (fun q => (q.counts, q.volume)) = some (40, 60)
      ∧ condRestarted 4#16 = true ∧ (((meterIs fun m => { m with last := some 61 }).meterReport 1 [4#16, 0#16, 60#16]).meter 1).accepted = 60 := by
  decide +kernel

theorem test_district_samples :
    recorderSample [0#16, 150#16] = some 150 ∧ plant.isLost 102 = false ∧ governorSample [128#16, 50#16, 1#16] = some (50, .up)
      ∧ governorSample [1#16, 50#16, 1#16] = none ∧ ((plant.recorderReport 1 [0#16, 150#16]).district 1).map (·.rt.maxP) = some (some 150)
      ∧ (let s := { plant with dir := [(102, { bound (.recorder 1) with lost := true })] }
        s.isLost 102 = true ∧ s.recorderReport 1 [0#16, 150#16] = s)
      ∧ ((plant.governorReport 1 [128#16, 50#16, 1#16]).district 1).map (fun x => (x.rt.position, x.rt.limit)) = some (some 50, .up)
      ∧ ((plant.governorReport 1 [1#16, 50#16, 1#16]).district 1).map (·.rt.governorFault) = some true := by decide +kernel

theorem test_target_head_and_governor_steps :
    let s := districtIs (fun r => { r with target := some 150, shed := 1 }) { inRun with clock := ⟨0, 21600, true⟩ }
    let limited := districtIs (fun r => { r with target := some 150, limit := .down }) inRun
    let bad := { s with districts := [(1, ⟨districtRec, true, DistrictRt.initial districtRec false, Slot.free⟩)] }
    let off := { s with districts := [(1, ⟨{ districtRec with inService := false }, false, DistrictRt.initial districtRec false, Slot.free⟩)] }
    ((s.retarget 1).district 1).map (·.rt.target) = some (some 135) ∧ ((bad.retarget 1).district 1).map (·.rt.target) = some none
      ∧ off.headEval 1 = off ∧ bad.headEval 1 = bad ∧ ((s.headEval 1).district 1).map (fun x => (x.rt.head, x.rt.headShort)) = some (60, true)
      ∧ s.drawCup = false ∧ s.governorLoop 1 158 = s ∧ s.governorLoop 1 142 = s ∧ plant.governorLoop 1 0 = plant
      ∧ (s.governorLoop 1 141).handoffs = [.claim (.governor 1) .raise 0 .governor none]
      ∧ (s.governorLoop 1 159).handoffs = [.claim (.governor 1) .lower 0 .governor none]
      ∧ (limited.governorLoop 1 159).desk.notices.map (·.kind) = [.governorLimit]
      ∧ plant.clock.set = false ∧ s.activeSegment districtRec = ⟨false, 1⟩
      ∧ ({ s with clock := ⟨0, 21599, true⟩ } : State).activeSegment districtRec = ⟨false, 2⟩
      ∧ ({ s with flags := 1#8 } : State).activeSegment districtRec = ⟨true, 1⟩ := by decide +kernel

def failedTimes (n : Nat) (lost : Bool) : State :=
  { plant with dir := [(11, { bound (.gauge 1) with failures := n, lost := lost })] }

theorem test_station_standing :
    ((failedTimes 2 false).enabledPoll 11).map (·.1) = some 1 ∧ (failedTimes 2 false).yardNow.lostThreshold = 3
      ∧ (((failedTimes 2 false).pollFailed .f1 11 .noResponse false).entry 11).map (fun e => (e.failures, e.lost)) = some (3, true)
      ∧ (((failedTimes 1 false).pollFailed .f1 11 .noResponse false).entry 11).map (fun e => (e.failures, e.lost)) = some (2, false)
      ∧ (((failedTimes 15 true).pollFailed .f1 11 .noResponse false).entry 11).map (fun e => (e.failures, e.lost)) = some (15, true)
      ∧ ((failedTimes 15 true).pollGood 11 0#16).entry 11 = some { bound (.gauge 1) with failures := 0, lost := false }
      ∧ ({ failedTimes 15 true with polls := [] } : State).enabledPoll 11 = none
      ∧ (({ failedTimes 15 true with polls := [] } : State).pollGood 11 0#16).entry 11 = some { bound (.gauge 1) with failures := 0, lost := false } := by
  decide +kernel

/-! ### Timers -/

def atSecond (n : Nat) (s : State) : State := { s with elapsed := n }

theorem test_clock_and_minutes :
    let s := { plant with clock := ⟨0, 59, true⟩, elapsed := 70 }
    let rt : DistrictRt := { DistrictRt.initial districtRec false with shed := 1, boosted := true, shedMin := 65535 }
    let due := { inRun with minuteDue := true, districts := [(1, ⟨districtRec, false, rt, Slot.free⟩)] }
    Settled s ∧ (after .yardClockSecond s).minuteDue = true ∧ (after .yardClockSecond s).clock.second = 60
      ∧ (after .yardClockSecond { s with clock := ⟨0, 86399, true⟩ }).clock = ⟨1, 0, true⟩
      ∧ gives (exec .minuteBoundary plant) plant = true ∧ due.minuteDue = true ∧ (after .minuteBoundary due).minuteDue = false
      ∧ ((after .minuteBoundary due).district 1).map (fun y => (y.rt.shedMin, y.rt.boostMin)) = some (65535, 1) := by decide +kernel

theorem test_aging_and_cycle :
    plant.relay.agingDue = some 300 ∧ gives (exec .agingExpiry (atSecond 299 plant)) (atSecond 299 plant) = true
      ∧ (after .agingExpiry (atSecond 300 withLearned)).entry 199 = none ∧ (after .agingExpiry (atSecond 300 withLearned)).relay.agingDue = some 600
      ∧ gives (exec .cycleExpiry (atSecond 9 plant)) (atSecond 9 plant) = true
      ∧ (after .cycleExpiry (atSecond 10 inRun)).cycle = ⟨1, 20, 10, 1⟩ := by decide +kernel

theorem test_cycle_polls_are_placed :
    let at3 (q : List PartPoll) : State := { busyLines inRun with lines := { (busyLines inRun).lines with f1 := { (busyLines inRun).lines.f1 with q2 := q } } }
    let looking := { at3 [] with dir := [] }
    (at3 []).stationLine 11 = some .f1 ∧ ((at3 []).poll 1).map (fun p => (p.tab.enabled, p.damaged, p.search)) = some (true, false, .f1)
      ∧ ((at3 [pollOf 11, { pollOf 51 with check := true }]).clearCycles.1.line .f1).q2 = [{ pollOf 51 with check := true }]
      ∧ (at3 [pollOf 11]).clearCycles.2 = 1 ∧ (((at3 []).offerCycle 1).line .f1).q2 = [⟨11, 3, 0, false, false, false, false, 1⟩]
      ∧ (((at3 [pollOf 11]).offerCycle 1).line .f1).q2 = [pollOf 11]
      ∧ (((at3 (List.replicate 64 (pollOf 51))).offerCycle 1).line .f1).counters.overrun = 1
      ∧ looking.stationLine 11 = none ∧ ((looking.offerCycle 1).poll 1).map (·.search) = some .f2
      ∧ (let s := { at3 [] with polls := [(1, pollInitial { pollRec 11 with nth := 2 } false)], cycle := { plant.cycle with number := 1 } }
        s.offerCycle 1 = s) := by decide +kernel

/-- The order that holder 1, in a state, claims at a cycle's examination: on which valve, and the notices raised. -/
def examined (st : HState) (inlet : VState) (f : HolderRt → HolderRt) : List Handoff × List NoticeKind :=
  let s : State := { holderIs (fun r => f { r with state := st }) inRun with
    valves := [(1, { valveInitial ⟨1, 51, 120⟩ false with state := inlet }), (2, valveInitial ⟨2, 52, 120⟩ false)] }
  ((s.safetyExamineOne 1).handoffs, (s.safetyExamineOne 1).desk.notices.map (·.kind))

theorem test_safety_shuts_at_a_cycle :
    let shut (v : Nat) (o : Origin) : List Handoff × List NoticeKind := ([.claim (.valve v) .shut 0 o none], [.safetyShut])
    examined .top .opened id = shut 1 .autoTop ∧ examined .grounded .opened id = shut 2 .autoGround ∧ examined .fault .opened id = shut 1 .autoFault
      ∧ examined .fault .opened (fun r => { r with causes := { Causes.empty with stuck := [1] } }) = ([], [])
      ∧ examined .fault .opened (fun r => { r with causes := { Causes.empty with unknown := [2] } }) = shut 1 .autoFault
      ∧ examined .blind .opened id = ([], []) ∧ examined .blind .halted (fun r => { r with blindShutDue := true }) = shut 1 .autoBlind
      ∧ examined .top .shut id = ([], []) ∧ examined .top .shutting id = ([], []) ∧ examined .low .opened id = ([], [])
      ∧ examined .top .opened (fun r => { r with noticed := ⟨true, false, false, false⟩ }) = ([.claim (.valve 1) .shut 0 .autoTop none], [])
      ∧ (inRun.safetyExamine).handoffs = [.safetyExamineOne 1] ∧ plant.safetyExamine = plant := by decide +kernel

theorem test_a_slot_that_holds_a_shut_is_left :
    let s (sl : Slot) : State := { holderIs (fun r => { r with state := .top }) inRun with
      valves := [(1, { valveInitial ⟨1, 51, 120⟩ false with state := .opened, slot := sl })] }
    (s { Slot.free with state := .queued, code := .shut }).safetyExamineOne 1 = s { Slot.free with state := .queued, code := .shut }
      ∧ (s { Slot.free with state := .sent, code := .opn, followUp := some ⟨.desk, none⟩ }).safetyExamineOne 1
        = s { Slot.free with state := .sent, code := .opn, followUp := some ⟨.desk, none⟩ }
      ∧ ((s { Slot.free with state := .travel, code := .opn }).safetyExamineOne 1).handoffs = [.claim (.valve 1) .shut 0 .autoTop none] := by
  decide +kernel

/-- What holder 1 hands on as it enters the state that its latch and sighted state give. -/
def entered (latch : Bool) (g : Option Sighted) (held : HState) (mode : RunState) : List Handoff :=
  let s := holderIs (fun r => { r with state := held, latch := latch, sighted := g }) { plant with runState := mode }
  (s.rederiveFrom 1 (HolderRt.initial holderRec)).handoffs

theorem test_entering_a_state :
    let shut (v : Nat) (o : Origin) : Handoff := .claim (.valve v) .shut 0 o none
    entered false (some .top) .high .run = [.topGuard 1, shut 1 .autoTop, .holderNotice 1 .top, .holderTold 1 true]
      ∧ entered false (some .grounded) .low .hold = [shut 2 .autoGround, .holderNotice 1 .grounded, .holderTold 1 true]
      ∧ entered true (some .low) .low .run = [shut 1 .autoFault, .holderNotice 1 .fault, .holderTold 1 true]
      ∧ entered false (some .top) .high .standby = [.topGuard 1, .holderNotice 1 .top, .holderTold 1 true]
      ∧ entered false (some .cup) .working .run = [.holderTold 1 true] ∧ entered false none .low .run = [.holderNotice 1 .out, .holderTold 1 true]
      ∧ entered false (some .working) .working .run = [] := by decide +kernel

/-- A holder left BLIND by a warm restart, its gauge not lost, leaves BLIND at a write of its record (01 R11). -/
theorem test_a_write_rederives_a_blind_holder :
    let s := holderIs (fun r => { r with state := .blind, sighted := some .working, height := some ⟨6200, 0, 0, true⟩ }) plant
    plant.isLost 11 = false ∧ ((s.takeHolder 1 holderRec).holder 1).map (·.rt.state) = some .working
      ∧ ((after (.writeHolderRecord hd 1 holderRec) s).holder 1).map (·.rt.state) = some .working := by decide +kernel

/-- A parked order meets the holder's new state before its valve's station, which is UNLOCATED here (01 R23). -/
theorem test_the_gate_again :
    let away (st : HState) : State := { holderIs (fun r => { r with state := st }) plant with
      dir := plant.dir.map fun p => (p.1, { p.2 with line := none }) }
    [HState.blind, .fault, .out, .working].map (fun st => (away st).gateAgain 1)
        = [some .blind, some .fault, some .out, some .unknownStation]
      ∧ (away .blind).gate 1 = some .unknownStation := by decide +kernel

/-- Still-window count, long-still and window mark of a holder at 6 200 mm after a window expiry. -/
def windowed (sampled : Bool) (mark : Option Nat) (count : Nat) (long : Bool) : Nat × Bool × Option Nat :=
  let w := windowHolder ⟨holderRec, false, { HolderRt.initial holderRec with
    height := some ⟨6200, 0, 0, false⟩, sampled := sampled, windowMark := mark, stillCount := count, longStill := long }⟩
  (w.stillCount, w.longStill, w.windowMark)

theorem test_the_rate_window :
    [some 6190, some 6210, some 6189, some 6211, none].map (windowed true · 1 false)
      = [(2, true, some 6200), (2, true, some 6200), (0, false, some 6200), (0, false, some 6200), (0, false, some 6200)]
      ∧ windowed true (some 6200) 0 true = (1, true, some 6200) ∧ windowed true (some 6200) 2 false = (2, true, some 6200)
      ∧ windowed false (some 6200) 2 true = (0, false, some 6200) := by decide +kernel

/-- A holder that has stood still for one window, its inlet in a state; the notices of the next window. -/
def stillNotices (inlet : VState) : List NoticeKind :=
  let s := holderIs (fun r => { r with
    state := .working, sighted := some .working, height := some ⟨6200, 0, 0, false⟩, sampled := true, windowMark := some 6200, stillCount := 1 }) inRun
  (after .rateWindowExpiry (atSecond 300 { s with valves := [(1, { valveInitial ⟨1, 51, 120⟩ false with state := inlet })] })).desk.notices.map (·.kind)

theorem test_holder_still : stillNotices .opened = [.holderStill] ∧ stillNotices .shut = [] := by decide +kernel

theorem test_holder_timers :
    let order : Parked := ⟨1, .opn, 0, ⟨9, false, 60, [1#16]⟩, 60⟩
    let parked := holderIs (fun r => { r with park := some order }) inRun
    let grace := holderIs (fun r => { r with graceDue := some 60 }) (busyLines inRun)
    let resting := { grace with runState := .standby }
    (parked.holder 1).map (·.rt.park) = some (some order) ∧ (grace.holder 1).map (·.rt.graceDue) = some (some 60)
      ∧ gives (exec (.parkTimerExpiry 1) (atSecond 59 parked)) (atSecond 59 parked) = true
      ∧ relayedBack (after (.parkTimerExpiry 1) (atSecond 60 parked)) 34 .tooLate none = true
      ∧ lastWords (after (.parkTimerExpiry 1) (atSecond 60 parked)) = some [60]
      ∧ shutOf 1 (after (.blindGraceExpiry 1) (atSecond 60 grace)) = some (.shut, .autoBlind)
      ∧ shutOf 1 (after (.blindGraceExpiry 1) (atSecond 60 resting)) = none
      ∧ gives (exec (.blindGraceExpiry 1) (atSecond 59 grace)) (atSecond 59 grace) = true
      ∧ ((after (.blindGraceExpiry 1) (atSecond 60 grace)).holder 1).map (·.rt.blindShutDue) = some true
      ∧ ((after (.blindGraceExpiry 1) (atSecond 60 resting)).holder 1).map (·.rt.blindShutDue) = some true
      ∧ tblWf plant.holders = true ∧ gives (exec .rateWindowExpiry (atSecond 299 plant)) (atSecond 299 plant) = true
      ∧ (after .rateWindowExpiry (atSecond 300 plant)).rateDue = 600 := by decide +kernel

theorem test_travel_allowance :
    let x := { valveInitial ⟨1, 51, 120⟩ false with slot := { Slot.free with state := .travel, code := .opn, deadline := some 150 } }
    let s := busyLines { inRun with valves := [(1, x)] }
    let shaped := withF2 (fun u => { u with mode := .awaiting, exch := none }) s
    let line1 := { s with lines := { s.lines with f1 := { s.lines.f1 with mode := .sending, exch := none } } }
    s.valve 1 = some x ∧ s.isLost 51 = false ∧ s.stationLine (s.valveStation 1) = some .f1 ∧ (line1.line .f1).exch = none ∧ (line1.line .f1).mode ≠ .idle
      ∧ (line1.line .f1).q2 = [] ∧ Settled shaped
      ∧ gives (exec (.travelAllowanceExpiry 1) (atSecond 149 s)) (atSecond 149 s) = true
      ∧ ((after (.travelAllowanceExpiry 1) (atSecond 150 line1)).line .f1).q2.map (fun p => (p.station, p.check)) = [(51, true)] := by decide +kernel

theorem test_an_earlier_check_is_awaited_no_more :
    let p := { pollOf 51 with check := true, asked := true }
    let u := { plant.lines.f1 with q2 := [p], selected := some (.poll p) }
    (forgetCheck 51 u).q2 = [{ p with asked := false }] ∧ (forgetCheck 51 u).selected = some (.poll { p with asked := false })
      ∧ (forgetCheck 51 { u with exch := some { exchangeWith 51 1 false with check := true } }).exch = some (exchangeWith 51 1 false)
      ∧ plant.enabledPoll 199 = none ∧ plant.askedPoll 199 = ⟨199, 3, 1, true, false, false, true, 0⟩
      ∧ (plant.enabledPoll 51).map (·.1) = some 2 ∧ plant.askedPoll 51 = ⟨51, 3, 0, true, false, false, true, 2⟩ := by decide +kernel

theorem test_turn_timer :
    let s := { rotaRuns inRun with fill := { (rotaRuns inRun).fill with pend := List.replicate 24 ⟨1, false⟩, pendFlag := true } }
    s.fill.turnDue = some 900 ∧ gives (exec .turnTimerExpiry (atSecond 899 s)) (atSecond 899 s) = true
      ∧ (after .turnTimerExpiry (atSecond 900 s)).fill.turn = 0
      ∧ (after .turnTimerExpiry (atSecond 900 s)).fill.work = List.replicate 24 ⟨1, false⟩ := by
  decide +kernel

def changing (s : State) : State :=
  { s with fill := { s.fill with running := true, chg := some ⟨none, 1, .openingNew, false, some 60, false⟩ } }

theorem test_deferral_deadline :
    (changing plant).runState = .standby ∧ (changing plant).inletState 1 ≠ some .opened
      ∧ gives (exec .deferralDeadlineExpiry (atSecond 59 (changing plant))) (atSecond 59 (changing plant)) = true
      ∧ ((after .deferralDeadlineExpiry (atSecond 60 (changing plant))).fill.chg.map (·.waived)) = some true := by decide +kernel

theorem test_settle_timer :
    let s := { inRun with districts := [(1, ⟨districtRec, false, { DistrictRt.initial districtRec false with settleDue := some 60 }, Slot.free⟩)] }
    (s.district 1).map (·.rt.settleDue) = some (some 60) ∧ gives (exec (.settleExpiry 1) (atSecond 59 s)) (atSecond 59 s) = true
      ∧ ((after (.settleExpiry 1) (atSecond 60 s)).district 1).map (·.rt.settleDue) = some none := by decide +kernel

def boosterIs (f : Booster → Booster) (s : State) : State := { s with boosters := [(1, f (Booster.initial boosterRec false))] }

/-- A booster in a state, undecided, after a report of running or not running. -/
def decidedBy (st : BState) (running : Word) : Option (BState × Option FailCause × Option Nat) :=
  (((boosterIs (fun x => { x with state := st, undecided := some 60 }) inRun).boosterReport 1 [0#16, running, 80#16]).booster 1).map
    fun x => (x.state, x.cause, x.undecided)

/-- The report that decides an undecided booster (05 R118); one that is FREE and reported running fails UNHELD (05 R110). -/
theorem test_undecided_booster_reports :
    [(.free, 1), (.free, 0), (.starting, 1), (.starting, 0), (.stopping, 0), (.stopping, 1), (.running, 0), (.out, 1)].map
        (fun p : BState × Nat => decidedBy p.1 (wordOf p.2))
      = [some (.failed, some .unheld, none), some (.free, none, none), some (.running, none, none), some (.free, none, none),
        some (.free, none, none), some (.stopping, none, none), some (.failed, some .tripped, none), some (.out, none, none)] := by
  decide +kernel

theorem test_booster_timers :
    let held := boosterIs (fun x => { x with state := .running, district := some 1, releaseDue := some 60 }) inRun
    let rest := { held with runState := .standby }
    let sl : Slot := { Slot.free with state := .travel, code := .start, deadline := some 60 }
    let late := boosterIs (fun x => { x with slot := sl, state := .starting, district := some 1 }) inRun
    let undec := boosterIs (fun x => { x with undecided := some 60 }) inRun
    gives (exec (.releaseHoldExpiry 1) (atSecond 59 held)) (atSecond 59 held) = true ∧ (held.booster 1).map (fun x => (x.state, x.releaseDue)) = some (.running, some 60)
      ∧ ((after (.releaseHoldExpiry 1) (atSecond 60 held)).booster 1).map (·.state) = some .stopping
      ∧ ((after (.releaseHoldExpiry 1) (atSecond 60 rest)).booster 1).map (·.stopDue) = some (some .release)
      ∧ (late.booster 1).map (fun x => (x.slot.state, x.slot.followUp, late.isLost x.tab.station)) = some (.travel, none, false)
      ∧ gives (exec (.boosterDeadlineExpiry 1) (atSecond 59 late)) (atSecond 59 late) = true
      ∧ ((after (.boosterDeadlineExpiry 1) (atSecond 60 late)).booster 1).map (·.state) = some .failed
      ∧ (undec.booster 1).map (fun x => (x.district, x.damaged)) = some (none, false) ∧ undec.poolMode = .manual
      ∧ gives (exec (.undecidedDeadlineExpiry 1) (atSecond 59 undec)) (atSecond 59 undec) = true
      ∧ ((after (.undecidedDeadlineExpiry 1) (atSecond 60 undec)).booster 1).map (·.cause) = some (some .allowance) := by decide +kernel

theorem test_recovery_timer :
    let s := { inRun with districts := [], flags := 0x40#8, pool := { inRun.pool with level := 1, recoveryDue := some 60 } }
    s.pool.recoveryDue = some 60 ∧ s.districts = [] ∧ (after .recoveryExpiry (atSecond 60 s)).pool.level = 0 ∧ (after .recoveryExpiry (atSecond 60 s)).flags = 0#8 := by
  decide +kernel

/-! ### Start-up, auto-run, account close -/

theorem test_start_up :
    plant.mem.store.map (·.code) = [1, 2, 3, 4, 5, 6, 7, 9, 11, 12, 13, 14] ∧ (plant.mem.store.all fun b => b.good && b.content.isNone) = true
      ∧ (after (.powerOnReset ⟨false, []⟩) plant).desk.notices.length = 12 ∧ gives (exec (.powerOnReset ⟨true, []⟩) plant) State.reset = true := by
  decide +kernel

theorem test_start_up_from_a_store_written :
    let s := { inRun with mem := { inRun.mem with store := inRun.snapshot 0#16 } }
    let t := after (.powerOnReset ⟨true, []⟩) s
    s.mem.store = inRun.snapshot 0#16 ∧ (t.holder 1).map (·.tab) = some holderRec ∧ (t.district 1).map (·.tab) = some districtRec
      ∧ (t.valve 2).map (·.tab) = some ⟨2, 52, 120⟩ ∧ (t.poll 7).map (·.tab) = some (pollRec 151) ∧ t.yardPresent = true
      ∧ t.runState = .standby := by decide +kernel

theorem test_auto_run :
    let owed := { plant with mem := { plant.mem with autoRun := true }, cycle := { plant.cycle with expiries := 2 } }
    owed.runRefusal = none ∧ owed.runState ≠ .run ∧ gives (exec .autoRun plant) plant = true ∧ (after .autoRun owed).runState = .run
      ∧ (after .autoRun { owed with holders := [] }).desk.notices.map (·.kind) = [.autoRunRefused] := by decide +kernel

theorem test_account_close :
    let close (k : Nat) (merge : Bool) := atSecond 900 { plant with acct := { plant.acct with ring := List.replicate k (aRecord 0), mergeRun := merge } }
    gives (exec .accountCloseDue (atSecond 899 plant)) (atSecond 899 plant) = true ∧ (close 127 false).acct.openAcct.closeDue ≤ 900
      ∧ (close 127 false).acct.ring.length < 128 ∧ 128 ≤ (close 128 true).acct.ring.length ∧ plant.minuteDue = false
      ∧ (after .accountCloseDue (close 127 false)).acct.ring.length = 128 ∧ (after .accountCloseDue (close 127 false)).acct.openAcct.number = 1
      ∧ (after .accountCloseDue (close 128 true)).acct.openAcct.merged = 1 := by decide +kernel

end Sys2Proof.Tests
end

section
/-! Proofs of the family of the district pressure unit: the writes of district and booster records (04 R82, 05 R101), and
SET CLOCK (10 R202). -/

namespace Sys2Proof.DistrictProofs

open Sys2Proof Sys2Proof.Machine

/-! ### An ASK that is taken -/

theorem quiet_of_takes {s : State} {h : AskHead} {code : Nat} (t : Takes s h code) : s.handoffs = [] := t.1.1

theorem room_of_takes {s : State} {h : AskHead} {code : Nat} (t : Takes s h code) : s.desk.tx.length < Config.deskTxCap := t.2.1

/-- The step of an ASK that is taken is what the request does, and then all that it hands on. -/
theorem afterReads_takeAsk {s : State} {h : AskHead} {code : Nat} (t : Takes s h code) (f : State → State) :
    afterReads (fun u => u.takeAsk h code f) s = finish (f s) := by
  rw [afterReads_quiet _ t.1.2, State.takeAsk_takes t]

theorem exec_setClock {s : State} {h : AskHead} {day second : Nat} (t : Takes s h 7) :
    exec (.setClock h day second) s = finish (s.doSetClock h.tag day second) := afterReads_takeAsk t _

/-! ### SET CLOCK -/

/-- What SET CLOCK itself does of a day and a second in range, before the districts retarget and the answer is given. -/
def clockSet (s : State) (day second : Nat) : State :=
  ({ s with clock := ⟨day, second, true⟩, minuteDue := false } : State).acctClockSet

theorem clockSet_calm (s : State) (day second : Nat) :
    (clockSet s day second).calm = ({ s with clock := ⟨day, second, true⟩, minuteDue := false } : State).calm := rfl

/-- A second of a day and a day in range are set: each district is retargeted, and the clock held before is the answer. -/
theorem doSetClock_in_range {s : State} {day second : Nat} (tag : Nat) (d : day ≤ 65535) (c : second < Config.daySeconds) :
    s.doSetClock tag day second = ((clockSet s day second).hand (s.districts.map fun p => .target p.1)).hand
      [.reply tag 7 .done none (.words ([s.clock.day] ++ two s.clock.second ++ [bit s.clock.set]))] := by
  rw [State.doSetClock, if_neg (Nat.not_lt.2 d), if_neg (Nat.not_le.2 c)]
  rfl

theorem finish_bad {s : State} {h : AskHead} {code : Nat} (t : Takes s h code) (position : Nat) :
    finish (s.bad h.tag code position) = .next (s.answered h code .bad none (.words [position])) :=
  finish_reply s h code .bad none _ (quiet_of_takes t) (room_of_takes t)

/-- The targets of the districts are evaluated anew, which is plain work: what is calm stands as SET CLOCK left it. -/
theorem setClock_sets {s : State} {h : AskHead} {day second : Nat} (t : Takes s h 7) (d : day ≤ 65535) (c : second < 86400) :
    ∃ u, exec (.setClock h day second) s = .next u
      ∧ Answered { s with clock := ⟨day, second, true⟩, minuteDue := false } u h 7 .done none
        (.words ([s.clock.day] ++ two s.clock.second ++ [bit s.clock.set])) := by
  rw [exec_setClock t, doSetClock_in_range h.tag d c]
  have quiet : (clockSet s day second).handoffs = [] := quiet_of_takes t
  exact finish_last _ _ (s.districts.map fun p => .target p.1) h _ _ _ _ (by simp [quiet]) (by simp [plain])
    (clockSet_calm s day second)

/-- With no district, the answer is all that is handed on. -/
theorem setClock_without_districts {s : State} {h : AskHead} {day second : Nat} (t : Takes s h 7) (d : day ≤ 65535)
    (c : second < 86400) (empty : s.districts = []) :
    exec (.setClock h day second) s = .next ((clockSet s day second).answered h 7 .done none
      (.words ([s.clock.day] ++ two s.clock.second ++ [bit s.clock.set]))) := by
  have quiet : (clockSet s day second).handoffs = [] := quiet_of_takes t
  have nothing : (clockSet s day second).hand [] = clockSet s day second := by simp [State.hand]
  rw [exec_setClock t, doSetClock_in_range h.tag d c, empty, List.map_nil, nothing]
  exact finish_reply _ h 7 .done none _ quiet (room_of_takes t)

/-- Settles O33: a clock set is plain work of the districts and then the answer; BAD is an answer alone. -/
theorem setClockSetsTheClock : Obligations.SetClockSetsTheClock := by
  intro s h day second t
  refine ⟨fun d c => ⟨?_, setClock_without_districts t d c⟩, fun d => ?_, fun d c => ?_⟩
  · obtain ⟨u, e, calm, answers⟩ := setClock_sets t d c
    have records := SameRecords.of_calm calm
    have samples := SameSamples.of_calm calm
    exact ⟨u, e, congrArg Calm.clock calm, congrArg Calm.minuteDue calm, congrArg Calm.elapsed calm, .of_calm calm, records,
      samples, answers⟩
  · rw [exec_setClock t, State.doSetClock, if_pos d, finish_bad t]
  · have late : Config.daySeconds ≤ second := c
    rw [exec_setClock t, State.doSetClock, if_neg (Nat.not_lt.2 d), if_pos late, finish_bad t]

/-! ### Work that keeps the table records -/

/-- `u` comes from `s` by work that leaves the table records, the run state and the clock, and hands nothing on. -/
structure RecordWork (s u : State) : Prop where
  records : SameRecords s u
  handoffs : u.handoffs = s.handoffs
  runState : u.runState = s.runState
  clock : u.clock = s.clock

theorem RecordWork.refl (s : State) : RecordWork s s := ⟨.refl s, rfl, rfl, rfl⟩

theorem RecordWork.trans {a b c : State} (h : RecordWork a b) (k : RecordWork b c) : RecordWork a c :=
  ⟨h.records.trans k.records, k.handoffs.trans h.handoffs, k.runState.trans h.runState, k.clock.trans h.clock⟩

theorem RecordWork.foldl {α : Type} {f : State → α → State} (hf : ∀ s x, RecordWork s (f s x)) (l : List α) (s : State) :
    RecordWork s (l.foldl f s) := by
  induction l generalizing s with
  | nil => exact .refl s
  | cons x r ih => exact (hf s x).trans (ih _)

/-- The directory and the relay's counts are no table records. -/
theorem RecordWork.directory (s : State) (d : Tbl DirEntry) (r : Relay) : RecordWork s { s with dir := d, relay := r } :=
  ⟨SameRecords.refl s, rfl, rfl, rfl⟩

theorem unstaged_work (s : State) : RecordWork s s.unstaged := ⟨SameRecords.refl s, rfl, rfl, rfl⟩

theorem modAcct_work (s : State) (f : Account → Account) : RecordWork s (s.modAcct f) := ⟨SameRecords.refl s, rfl, rfl, rfl⟩

theorem addPart_work (s : State) (n : Nat) : RecordWork s (s.addPart n) := by
  unfold State.addPart
  split
  · exact .refl s
  · exact modAcct_work s _

theorem tableWritten_work (s : State) : RecordWork s s.tableWritten := by
  unfold State.tableWritten
  split
  · exact ⟨SameRecords.refl s, rfl, rfl, rfl⟩
  · exact .refl s

theorem tableWritten_meters (s : State) : s.tableWritten.meters = s.meters := by unfold State.tableWritten; split <;> rfl

/-- A meter entry whose weight, limit and damage mark are those held is the same record. -/
theorem setMeter_work {s : State} {n : Nat} {m : Meter}
    (e : (m.weight, m.limit, m.damaged) = ((s.meter n).weight, (s.meter n).limit, (s.meter n).damaged)) :
    RecordWork s (s.setMeter n m) := by
  obtain ⟨holders, valves, districts, boosters, _, others⟩ := SameRecords.refl s
  refine ⟨⟨holders, valves, districts, boosters, fun k => ?_, others⟩, rfl, rfl, rfl⟩
  rw [State.meter_setMeter]
  split
  · subst_vars; exact e
  · rfl

theorem setMeterStation_work (s : State) (n : Nat) (st : Option Nat) : RecordWork s (s.setMeterStation n st) := by
  unfold State.setMeterStation
  dsimp only
  split
  · exact .refl s
  · exact setMeter_work rfl

theorem setMeterStation_station (s : State) (n : Nat) (st : Option Nat) : ((s.setMeterStation n st).meter n).station = st := by
  unfold State.setMeterStation
  dsimp only
  split
  · assumption
  · simp

/-! ### Bindings are work of the directory -/

theorem setEntry_work (s : State) (st : Nat) (e : DirEntry) : RecordWork s (s.setEntry st e) := .directory s _ _

theorem removeEntry_work (s : State) (st : Nat) : RecordWork s (s.removeEntry st) := .directory s _ _

theorem createEntry_work (s : State) (st : Nat) (e : DirEntry) : RecordWork s (s.createEntry st e) := .directory s _ _

theorem makeRoom_work {s t : State} (h : s.makeRoom = some t) : RecordWork s t := by
  unfold State.makeRoom at h
  split at h
  · cases h; exact .refl s
  · split at h
    · cases h; exact removeEntry_work s _
    · cases h

theorem bindPresent_work (s : State) (b : Binding × Nat) : RecordWork s (s.bindPresent b) := by
  unfold State.bindPresent State.modEntry
  split
  · exact setEntry_work s _ _
  · exact .refl s

theorem bindAbsent_work (s : State) (b : Binding × Nat) : RecordWork s (s.bindAbsent b) := by
  unfold State.bindAbsent
  split
  · exact .refl s
  · split
    · next room => exact (makeRoom_work room).trans (createEntry_work _ _ _)
    · exact .refl s

theorem unbindEntry_work (s : State) (st : Nat) : RecordWork s (s.unbindEntry st) := by
  unfold State.unbindEntry
  repeat' split
  · exact .refl s
  · exact setEntry_work s _ _
  · exact setEntry_work s _ _
  · exact removeEntry_work s _

/-- The bindings of a write moved: those asked for are made, present stations first, and those given up are removed. -/
theorem rebind_work (s : State) (olds : List Binding) (news : List (Binding × Nat)) : RecordWork s (s.rebind olds news) := by
  unfold State.rebind State.bindAll
  exact ((RecordWork.foldl bindPresent_work _ s).trans (.foldl bindAbsent_work _ _)).trans (.foldl unbindEntry_work _ _)

/-! ### Records written -/

/-- A district written after such work is the district written at first, whatever its runtime fields and slot. -/
theorem RecordWork.setDistrict {s u : State} (h : RecordWork s u) (n : Nat) {x y : District} (e : (y.tab, y.damaged) = (x.tab, x.damaged)) :
    RecordWork (s.setDistrict n x) (u.setDistrict n y) := by
  obtain ⟨⟨holders, valves, districts, others⟩, handoffs, runState, clock⟩ := h
  refine ⟨⟨holders, valves, fun m => ?_, others⟩, handoffs, runState, clock⟩
  rw [State.district_setDistrict, State.district_setDistrict]
  split
  · exact congrArg some e
  · exact districts m

theorem RecordWork.setBooster {s u : State} (h : RecordWork s u) (n : Nat) {x y : Booster} (e : (y.tab, y.damaged) = (x.tab, x.damaged)) :
    RecordWork (s.setBooster n x) (u.setBooster n y) := by
  obtain ⟨⟨holders, valves, districts, boosters, others⟩, handoffs, runState, clock⟩ := h
  refine ⟨⟨holders, valves, districts, fun m => ?_, others⟩, handoffs, runState, clock⟩
  rw [State.booster_setBooster, State.booster_setBooster]
  split
  · exact congrArg some e
  · exact boosters m

/-- What stands once a write of the record that makes `s` of the state has been taken and answered. -/
structure WriteDone (s t : State) (h : AskHead) : Prop where
  records : SameRecords s t
  runState : t.runState = s.runState
  clock : t.clock = s.clock
  answers : Answers t h 2 .done none (.words [])

/-- A taken write: the record stands through the sweep's abort and the plain hand-offs, and DONE is answered last. -/
theorem finish_taken {s u : State} {hs : List Handoff} (h : AskHead) (w : RecordWork s u) (quiet : s.handoffs = []) (p : Plain hs) :
    ∃ t, finish ((u.hand hs).taken h.tag) = .next t ∧ t.meters = u.meters ∧ WriteDone s t h := by
  let v := (u.hand hs).tableWritten
  have made : v.handoffs = hs := by rw [(tableWritten_work _).handoffs, State.hand_handoffs, w.handoffs, quiet]; rfl
  obtain ⟨t, e, calm, answers⟩ := finish_last (v.hand [.reply h.tag 2 .done none (.words [])]) v hs h 2 .done none (.words [])
    (by rw [State.hand_handoffs, made]) p rfl
  have held : RecordWork (u.hand hs) v := tableWritten_work _
  exact ⟨t, e, (congrArg Calm.meters calm).trans (tableWritten_meters _),
    (w.records.trans held.records).trans (.of_calm calm), ((congrArg Calm.runState calm).trans held.runState).trans w.runState,
    ((congrArg Calm.clock calm).trans held.clock).trans w.clock, answers⟩

/-- A write that is not taken does nothing but end the staged write. -/
theorem finish_unstaged_reply {s : State} {h : AskHead} (t : Takes s h 2) (e : Result) :
    finish (s.unstaged.reply h.tag 2 e []) = .next (s.unstaged.answered h 2 e none (.words [])) :=
  finish_reply s.unstaged h 2 e none _ (quiet_of_takes t) (room_of_takes t)

/-- A write refused for its bindings: a FULL one is counted. -/
theorem finish_refused {s : State} {h : AskHead} (t : Takes s h 2) (e : Result) :
    finish ((s.unstaged.countRefusal e).reply h.tag 2 e []) = .next ((s.unstaged.countRefusal e).answered h 2 e none (.words [])) := by
  have same : ∃ r, s.unstaged.countRefusal e = { s.unstaged with relay := r } := by
    unfold State.countRefusal
    split <;> exact ⟨_, rfl⟩
  obtain ⟨r, same⟩ := same
  rw [same]
  exact finish_reply _ h 2 e none _ (quiet_of_takes t) (room_of_takes t)

/-! ### District records -/

theorem districtWritten_plain (s : State) (n : Nat) (r : DistrictRec) : plain (s.districtWritten n r) = true := by
  unfold State.districtWritten
  split
  · split
    · rfl
    · rfl
  · rfl

/-- The record stands as written, whether or not the district was held before. -/
theorem takeDistrict_written (s : State) (n : Nat) (r : DistrictRec) :
    ∃ u hs, s.takeDistrict n r = u.hand hs ∧ Plain hs ∧ (u.meter n).station = some r.meter
      ∧ RecordWork (s.setDistrict n ⟨r, false, DistrictRt.initial r false, Slot.free⟩) u := by
  have bound := rebind_work s [.governor n, .recorder n, .meter n] (districtBindings n r)
  have handed : Plain [.target n, .headEval n, s.districtWritten n r, .shed n, .boostCheck n] := by
    simp only [plain_cons, plain_nil]
    exact ⟨rfl, rfl, districtWritten_plain s n r, rfl, rfl, trivial⟩
  refine ⟨_, _, rfl, handed, setMeterStation_station _ n _, .trans ?_ (setMeterStation_work _ n _)⟩
  split
  · exact bound.setDistrict n rfl
  · exact (bound.setDistrict n rfl).trans (addPart_work _ n)

/-- A district record whose words are in range is refused for its governor slot, refused for its bindings, or taken. -/
theorem exec_writeDistrictRecord {s : State} {h : AskHead} {n : Nat} {r : DistrictRec} (t : Takes s h 2) (l : 1 ≤ n) (u : n ≤ 8)
    (ok : checkDistrict r = .ok) :
    exec (.writeDistrictRecord h n r) s = finish (if s.governorHeld n r then s.unstaged.reply h.tag 2 .badState []
      else match s.examineBindings (districtBindings n r) with
        | some e => (s.unstaged.countRefusal e).reply h.tag 2 e []
        | none => (s.unstaged.takeDistrict n r).taken h.tag) := by
  have index : writeRefusal 3 n 0 = none := by simp [writeRefusal, indexOk, writable, inRange, l, u]
  refine (afterReads_takeAsk t _).trans ?_
  rw [State.writeTyped, index, State.writeDistrict, ok]
  rfl

theorem writeDistrict_taken {s : State} {h : AskHead} {n : Nat} {r : DistrictRec} (t : Takes s h 2) (l : 1 ≤ n) (u : n ≤ 8)
    (ok : checkDistrict r = .ok) (free : s.governorHeld n r = false) (binds : s.examineBindings (districtBindings n r) = none) :
    ∃ w, exec (.writeDistrictRecord h n r) s = .next w ∧ (w.meter n).station = some r.meter
      ∧ WriteDone (s.setDistrict n ⟨r, false, DistrictRt.initial r false, Slot.free⟩) w h := by
  obtain ⟨v, hs, e, p, station, work⟩ := takeDistrict_written s.unstaged n r
  obtain ⟨w, f, meters, done⟩ := finish_taken h (((unstaged_work s).setDistrict n rfl).trans work) (quiet_of_takes t) p
  refine ⟨w, ?_, by simpa [State.meter, meters] using station, done⟩
  rw [exec_writeDistrictRecord t l u ok, free, binds, ← f, e]
  rfl

/-! ### Booster records -/

theorem takeBooster_written (s : State) (n : Nat) (r : BoosterRec) :
    ∃ u, s.takeBooster n r = u.hand [.grants] ∧ RecordWork (s.setBooster n (Booster.initial r false)) u := by
  have bound := rebind_work s [.booster n] [(.booster n, r.station)]
  refine ⟨_, rfl, ?_⟩
  split
  · exact bound.setBooster n rfl
  · exact bound.setBooster n rfl

/-- The ranges of a booster record's words (05 R101). -/
structure BoosterInRange (r : BoosterRec) : Prop where
  station : 1 ≤ r.station ∧ r.station ≤ 199
  lift : 50 ≤ r.lift ∧ r.lift ≤ 300
  allowance : 30 ≤ r.allowance ∧ r.allowance ≤ 600

theorem checkBooster_ok {r : BoosterRec} (h : BoosterInRange r) : checkBooster r = .ok := by
  simp [checkBooster, checkEntry, firstWrong, inRange, h.station, h.lift, h.allowance]

/-- A booster record whose words are in range is refused for a busy booster, refused for its binding, or taken. -/
theorem exec_writeBoosterRecord {s : State} {h : AskHead} {n : Nat} {r : BoosterRec} (t : Takes s h 2) (l : 1 ≤ n) (u : n ≤ 3)
    (ok : BoosterInRange r) :
    exec (.writeBoosterRecord h n r) s = finish (if (s.booster n).any boosterBusy then s.unstaged.reply h.tag 2 .badState []
      else match s.examineBindings [(.booster n, r.station)] with
        | some e => (s.unstaged.countRefusal e).reply h.tag 2 e []
        | none => (s.unstaged.takeBooster n r).taken h.tag) := by
  have index : writeRefusal 4 n 0 = none := by simp [writeRefusal, indexOk, writable, inRange, l, u]
  have busy : (s.booster n).any boosterBusy = match s.booster n with
      | some x => boosterBusy x
      | none => false := by cases s.booster n <;> rfl
  refine (afterReads_takeAsk t _).trans ?_
  rw [State.writeTyped, index, State.writeBooster, checkBooster_ok ok, busy]
  rfl

theorem writeBooster_taken {s : State} {h : AskHead} {n : Nat} {r : BoosterRec} (t : Takes s h 2) (l : 1 ≤ n) (u : n ≤ 3)
    (ok : BoosterInRange r) (free : (s.booster n).any boosterBusy = false) (binds : s.examineBindings [(.booster n, r.station)] = none) :
    ∃ w, exec (.writeBoosterRecord h n r) s = .next w ∧ WriteDone (s.setBooster n (Booster.initial r false)) w h := by
  obtain ⟨v, e, work⟩ := takeBooster_written s.unstaged n r
  obtain ⟨w, f, _, done⟩ :=
    finish_taken (hs := [.grants]) h (((unstaged_work s).setBooster n rfl).trans work) (quiet_of_takes t) (by simp [plain])
  refine ⟨w, ?_, done⟩
  rw [exec_writeBoosterRecord t l u ok, free, binds, ← f, e]
  rfl

/-- Settles O28: the three ends of a district write, and the two that the statement gives of a booster write. -/
theorem districtAndBoosterRecordsAreWritten : Obligations.DistrictAndBoosterRecordsAreWritten := by
  refine ⟨fun s h n r t l u ok => ⟨fun held => ?_, fun e free refused => ?_, fun free binds => ?_⟩,
    fun s h n r t l u s1 s2 l1 l2 a1 a2 => ⟨fun x e busy => ?_, fun free binds => ?_⟩⟩
  · rw [exec_writeDistrictRecord t l u ok, if_pos held, finish_unstaged_reply t]
  · rw [exec_writeDistrictRecord t l u ok, free, refused, ← finish_refused t]
    rfl
  · obtain ⟨w, e, station, records, runState, clock, answers⟩ := writeDistrict_taken t l u ok free binds
    exact ⟨w, e, records, station, runState, clock, answers⟩
  · have held : (s.booster n).any boosterBusy = true := by simp [e, busy]
    rw [exec_writeBoosterRecord t l u ⟨⟨s1, s2⟩, ⟨l1, l2⟩, ⟨a1, a2⟩⟩, if_pos held, finish_unstaged_reply t]
  · have idle : (s.booster n).any boosterBusy = false := (Option.any_eq_false _ _).2 free
    obtain ⟨w, e, records, runState, clock, answers⟩ := writeBooster_taken t l u ⟨⟨s1, s2⟩, ⟨l1, l2⟩, ⟨a1, a2⟩⟩ idle binds
    exact ⟨w, e, records, runState, clock, answers⟩

end Sys2Proof.DistrictProofs
end

section
/-! Proofs of the family of the send-out accounts: READ ACCOUNT, RELEASE ACCOUNT and the meter entry (06 R119, R133, R134), a malformed
ASK (10 R192), start-up, auto-run and account close (11 R212, R213, 06 R129, R131). -/

namespace Sys2Proof.AccountProofs

open Sys2Proof Sys2Proof.Machine Sys2Proof.DistrictProofs

/-! ### READ ACCOUNT and RELEASE ACCOUNT -/

theorem exec_readAccount {s : State} {h : AskHead} {pick part : Nat} (t : Takes s h 32) :
    exec (.readAccount h pick part) s = finish (s.doReadAccount h.tag pick part) := afterReads_takeAsk t _

theorem exec_releaseAccount {s : State} {h : AskHead} {number : Nat} (t : Takes s h 33) :
    exec (.releaseAccount h number) s = finish (s.doReleaseAccount h.tag number) := afterReads_takeAsk t _

/-- A request that changes nothing and hands on its words alone ends with them answered. -/
theorem finish_words {s : State} {h : AskHead} {code : Nat} (t : Takes s h code) (r : Result) (ws : List Nat) :
    finish (s.reply h.tag code r ws) = .next (s.answered h code r none (.words ws)) :=
  finish_reply s h code r none _ (quiet_of_takes t) (room_of_takes t)

/-- The pick is a place of the ring or OPEN. -/
def PickOk (pick : Nat) : Prop := ¬ (127 < pick ∧ pick ≠ openPick)

theorem pickOk_ring {pick : Nat} (k : pick ≤ 127) : PickOk pick := fun n => absurd n.1 (Nat.not_lt.2 k)

theorem pickOk_open : PickOk openPick := fun n => n.2 rfl

theorem pick_ne_open {pick : Nat} (k : pick ≤ 127) : pick ≠ openPick := by unfold openPick; omega

theorem doReadAccount_badPick {s : State} {pick part : Nat} (tag : Nat) (k : ¬ PickOk pick) :
    s.doReadAccount tag pick part = s.reply tag 32 .bad (2 :: s.ringWords) := if_pos (Decidable.not_not.1 k)

theorem doReadAccount_badPart {s : State} {pick part : Nat} (tag : Nat) (k : PickOk pick) (p : 4 < part) :
    s.doReadAccount tag pick part = s.reply tag 32 .bad (3 :: s.ringWords) := (if_neg k).trans (if_pos p)

/-- A pick and a part in range give the open account, or a place of the ring. -/
theorem doReadAccount_inRange {s : State} {pick part : Nat} (tag : Nat) (k : PickOk pick) (p : part ≤ 4) :
    s.doReadAccount tag pick part =
      if pick = openPick then s.reply tag 32 .done (accountPart (s.recordOf none none) part ++ s.ringWords)
      else if s.acct.ring.isEmpty then s.reply tag 32 .empty s.ringWords
      else match s.acct.ring[pick]? with
        | none => s.reply tag 32 .notFound s.ringWords
        | some r => s.reply tag 32 .done (accountPart r part ++ s.ringWords) := by
  rw [State.doReadAccount, if_neg k, if_neg (Nat.not_lt.2 p)]
  rfl

theorem doReadAccount_open {s : State} {part : Nat} (tag : Nat) (p : part ≤ 4) :
    s.doReadAccount tag openPick part = s.reply tag 32 .done (accountPart (s.recordOf none none) part ++ s.ringWords) := by
  rw [doReadAccount_inRange tag pickOk_open p, if_pos rfl]

theorem doReadAccount_emptyRing {s : State} {pick part : Nat} (tag : Nat) (k : pick ≤ 127) (p : part ≤ 4)
    (empty : s.acct.ring = []) : s.doReadAccount tag pick part = s.reply tag 32 .empty s.ringWords := by
  rw [doReadAccount_inRange tag (pickOk_ring k) p, if_neg (pick_ne_open k), if_pos (List.isEmpty_iff.2 empty)]

theorem doReadAccount_beyond {s : State} {pick part : Nat} (tag : Nat) (k : pick ≤ 127) (p : part ≤ 4) (held : s.acct.ring ≠ [])
    (absent : s.acct.ring[pick]? = none) : s.doReadAccount tag pick part = s.reply tag 32 .notFound s.ringWords := by
  rw [doReadAccount_inRange tag (pickOk_ring k) p, if_neg (pick_ne_open k), if_neg (mt List.isEmpty_iff.1 held), absent]

theorem doReadAccount_record {s : State} {pick part : Nat} {r : AccountRecord} (tag : Nat) (k : pick ≤ 127) (p : part ≤ 4)
    (found : s.acct.ring[pick]? = some r) :
    s.doReadAccount tag pick part = s.reply tag 32 .done (accountPart r part ++ s.ringWords) := by
  have held : s.acct.ring ≠ [] := fun e => by simp [e] at found
  rw [doReadAccount_inRange tag (pickOk_ring k) p, if_neg (pick_ne_open k), if_neg (mt List.isEmpty_iff.1 held), found]

/-- Settles O46: the checks of the pick and of the part come first, then the open account, then the place in the ring. -/
theorem readAccountGivesARecord : Obligations.ReadAccountGivesARecord := by
  intro s h pick part t
  refine ⟨fun big other => ?_, fun pickOk late => ?_, fun p => ?_, fun k p empty => ?_, fun k p held beyond => ?_,
    fun r k p found => ?_⟩
  · have wrong : ¬ PickOk pick := fun k => k ⟨big, other⟩
    rw [exec_readAccount t, doReadAccount_badPick h.tag wrong, finish_words t]
    rfl
  · have right : PickOk pick := pickOk.elim pickOk_ring fun e => e ▸ pickOk_open
    rw [exec_readAccount t, doReadAccount_badPart h.tag right late, finish_words t]
    rfl
  · exact (exec_readAccount t).trans ((congrArg finish (doReadAccount_open h.tag p)).trans (finish_words t _ _))
  · rw [exec_readAccount t, doReadAccount_emptyRing h.tag k p empty, finish_words t]
    rfl
  · rw [exec_readAccount t, doReadAccount_beyond h.tag k p held (List.getElem?_eq_none beyond), finish_words t]
    rfl
  · rw [exec_readAccount t, doReadAccount_record h.tag k p found, finish_words t]
    rfl

/-- Settles O47: the ring is empty, or its oldest record is the one named, or another is. -/
theorem releaseAccountTakesTheOldestOnly : Obligations.ReleaseAccountTakesTheOldestOnly := by
  intro s h number t
  refine ⟨fun empty => ?_, fun r rest held named => ?_, fun r rest held other => ?_⟩
  · rw [exec_releaseAccount t, State.doReleaseAccount, empty, finish_words t]
  · rw [exec_releaseAccount t, State.doReleaseAccount, held]
    dsimp only
    rw [if_pos named]
    exact finish_reply _ h 33 .done none _ (quiet_of_takes t) (room_of_takes t)
  · rw [exec_releaseAccount t, State.doReleaseAccount, held]
    dsimp only
    rw [if_neg other, finish_words t]

/-! ### Meter entries and line table entries -/

theorem tableWritten_quiet {s : State} (idle : s.mem.sweep = false) : s.tableWritten = s := by
  simp [State.tableWritten, idle]

/-- A write taken while no sweep runs, which hands nothing on, ends with DONE. -/
theorem finish_taken_alone {s : State} (h : AskHead) (quiet : s.handoffs = []) (room : s.desk.tx.length < Config.deskTxCap)
    (idle : s.mem.sweep = false) : finish (s.taken h.tag) = .next (s.answered h 2 .done none (.words [])) := by
  rw [State.taken, tableWritten_quiet idle]
  exact finish_reply s h 2 .done none _ quiet room

/-- A whole entry found wrong at a word is answered BAD at that word's place in the ASK, and ends the staged write. -/
theorem finish_badEntry {s : State} {h : AskHead} (t : Takes s h 2) (i : Nat) :
    finish (s.unstaged.badEntry h.tag 0 i) = .next (s.unstaged.answered h 2 .bad none (.words [5 + i])) := by
  rw [State.badEntry, if_pos (Nat.zero_le i)]
  exact finish_words (s := s.unstaged) t .bad _

theorem exec_writeMeterEntry {s : State} {h : AskHead} {n weight limit : Nat} (t : Takes s h 2) (u : n ≤ 8) :
    exec (.writeMeterEntry h n weight limit) s = finish (s.unstaged.writeMeter h.tag n 0 weight limit) := by
  have index : writeRefusal 5 n 0 = none := by simp [writeRefusal, indexOk, writable, inRange, u]
  refine (afterReads_takeAsk t _).trans ?_
  rw [State.writeTyped, index]
  rfl

theorem exec_writeLineTable {s : State} {h : AskHead} {l : FLine} {r : LineSet} (t : Takes s h 2) :
    exec (.writeLineTable h (lineNum l) r) s = finish (s.unstaged.writeLine h.tag (lineNum l) 0 r) := by
  have index : writeRefusal 7 (lineNum l) 0 = none := by cases l <;> rfl
  refine (afterReads_takeAsk t _).trans ?_
  rw [State.writeTyped, index]
  rfl

theorem lineOfNum_lineNum (l : FLine) : lineOfNum (lineNum l) = some l := by cases l <;> rfl

theorem checkMeter_ok {weight limit : Nat} (w : 1 ≤ weight ∧ weight ≤ 10000) (l : 1 ≤ limit ∧ limit ≤ 65535) :
    checkMeter weight limit = .ok := by simp [checkMeter, checkEntry, firstWrong, inRange, w, l]

theorem checkMeter_weight {weight limit : Nat} (w : ¬ (1 ≤ weight ∧ weight ≤ 10000)) : checkMeter weight limit = .word 0 := by
  simp [checkMeter, checkEntry, firstWrong, inRange, w]

theorem checkMeter_limit {weight limit : Nat} (w : 1 ≤ weight ∧ weight ≤ 10000) (l : ¬ (1 ≤ limit ∧ limit ≤ 65535)) :
    checkMeter weight limit = .word 1 := by simp [checkMeter, checkEntry, firstWrong, inRange, w, l]

theorem checkLine_ok {r : LineSet} (rate : r.rate = 9600 ∨ r.rate = 19200) (w1 : 1 ≤ r.w1 ∧ r.w1 ≤ 8) (w2 : 1 ≤ r.w2 ∧ r.w2 ≤ 8)
    (budget : r.budget ≤ 63) : checkLine r = .ok := by
  simp [checkLine, checkEntry, firstWrong, inRange, rate, w1, w2, budget]

theorem checkLine_rate {r : LineSet} (low : r.rate ≠ 9600) (high : r.rate ≠ 19200) : checkLine r = .word 0 := by
  simp [checkLine, checkEntry, firstWrong, low, high]

theorem writeMeter_ok {s : State} {weight limit : Nat} (tag n : Nat) (c : checkMeter weight limit = .ok) :
    s.writeMeter tag n 0 weight limit
      = (s.setMeter n { s.meter n with weight := weight, limit := limit, damaged := false }).taken tag := by
  rw [State.writeMeter, c]
  rfl

theorem writeMeter_word {s : State} {weight limit i : Nat} (tag n : Nat) (c : checkMeter weight limit = .word i) :
    s.writeMeter tag n 0 weight limit = s.badEntry tag 0 i := by
  rw [State.writeMeter, c]
  rfl

theorem writeLine_ok {s : State} {l : FLine} {r : LineSet} (tag : Nat) (c : checkLine r = .ok) :
    s.writeLine tag (lineNum l) 0 r = (s.setLine l { s.line l with set := r, damaged := false }).taken tag := by
  rw [State.writeLine, c, lineOfNum_lineNum]
  rfl

theorem writeLine_word {s : State} {n i : Nat} {r : LineSet} (tag : Nat) (c : checkLine r = .word i) :
    s.writeLine tag n 0 r = s.badEntry tag 0 i := by
  rw [State.writeLine, c]
  rfl

/-- Settles O23: the words in range are taken whole, and the first word out of range gives the place of BAD. -/
theorem meterAndLineEntriesAreWritten : Obligations.MeterAndLineEntriesAreWritten := by
  refine ⟨fun s h n weight limit t u => ⟨fun w1 w2 l1 l2 idle => ?_, fun w => ?_, fun w1 w2 l => ?_⟩,
    fun s h l r t => ⟨fun rate w1 w2 v1 v2 budget idle => ?_, fun low high => ?_⟩⟩
  · rw [exec_writeMeterEntry t u, writeMeter_ok h.tag n (checkMeter_ok ⟨w1, w2⟩ ⟨l1, l2⟩)]
    exact finish_taken_alone h (quiet_of_takes t) (room_of_takes t) idle
  · rw [exec_writeMeterEntry t u, writeMeter_word h.tag n (checkMeter_weight (by omega)), finish_badEntry t]
  · rw [exec_writeMeterEntry t u, writeMeter_word h.tag n (checkMeter_limit ⟨w1, w2⟩ (by omega)), finish_badEntry t]
  · rw [exec_writeLineTable t, writeLine_ok h.tag (checkLine_ok rate ⟨w1, w2⟩ ⟨v1, v2⟩ budget)]
    cases l <;> exact finish_taken_alone h (quiet_of_takes t) (room_of_takes t) idle
  · rw [exec_writeLineTable t, writeLine_word h.tag (checkLine_rate low high), finish_badEntry t]

/-! ### An ASK whose words make up no request -/

/-- An ASK taken whose words make up no request gets the answer BAD of its request code. -/
theorem exec_askMalformed {s : State} {h : AskHead} {w : Word} {ws : List Word} {p : Nat} (t : Takes s h w.toNat)
    (e : decodeAsk (w :: ws) = .error p) : exec (.askMalformed h (w :: ws)) s = finish (s.badForm h.tag w.toNat p) := by
  refine (afterReads_takeAsk t _).trans ?_
  rw [State.actAsk, e]

/-- An ASK with an empty body has no code to be held against the last answer: it is taken while its answer finds room. -/
theorem exec_askMalformed_nil {s : State} {h : AskHead} (v : Serves s) :
    exec (.askMalformed h []) s
      = finish (({ s with free := s.free + 1 } : State).bad h.tag (Config.freeWord s.free).toNat 1) := by
  have serves : s.deskServes = true := decide_eq_true v.2
  exact (afterReads_quiet (fun u => u.serveAsk h [] []) v.1.2).trans (congrArg finish (if_pos serves))

theorem badForm_plain {s : State} {code : Nat} (tag p : Nat) (r : code < 3 ∨ 6 < code) (watch : code ≠ 11) (account : code ≠ 32) :
    s.badForm tag code p = s.bad tag code p := by
  unfold State.badForm
  split
  iterate 6 omega
  rfl

theorem badForm_runState {s : State} {code : Nat} (tag p : Nat) (l : 3 ≤ code) (u : code ≤ 6) :
    s.badForm tag code p = s.cancelAutoRun.hand [.replyRunState tag code .bad none [p]] := by
  have which : code = 3 ∨ code = 4 ∨ code = 5 ∨ code = 6 := by omega
  rcases which with rfl | rfl | rfl | rfl <;> rfl

/-- The codes of Table 10.1 that appear in answers only, and those outside it, name no request. -/
theorem argCount_none {code : Nat} (k : code = 0 ∨ code = 17 ∨ 34 ≤ code) : argCount code = none := by
  unfold argCount
  split
  all_goals try omega
  rfl

theorem decodeAsk_unknown {w : Word} (ws : List Word) (k : w.toNat = 0 ∨ w.toNat = 17 ∨ 34 ≤ w.toNat) :
    decodeAsk (w :: ws) = .error 1 := by
  have code : nats (w :: ws) = w.toNat :: nats ws := rfl
  rw [decodeAsk, code]
  dsimp only
  rw [if_neg (by omega), argCount_none k]

/-- Settles O20: the answer BAD of each request code, the codes that name no request, and the ASK without a code. -/
theorem malformedAskIsBad : Obligations.MalformedAskIsBad := by
  refine ⟨fun s h w ws p t e => ⟨fun r watch account => ?_, fun l u => ?_, fun watch => ?_, fun account => ?_⟩,
    fun w ws k => decodeAsk_unknown ws k, fun s h v => ?_⟩
  · rw [exec_askMalformed t e, badForm_plain h.tag p r watch account, finish_bad t]
  · rw [exec_askMalformed t e, badForm_runState h.tag p l u]
    exact finish_replyRunState s.cancelAutoRun h _ .bad none [p] (quiet_of_takes t) (room_of_takes t)
  · rw [exec_askMalformed t e, watch]
    exact finish_words (watch ▸ t) .bad _
  · rw [exec_askMalformed t e, account]
    exact finish_words (account ▸ t) .bad _
  · rw [exec_askMalformed_nil v]
    exact finish_reply _ h _ .bad none _ v.1.1 v.2

/-! ### The auto-run -/

theorem exec_autoRun {s : State} (k : Settled s) : exec .autoRun s = finish (if s.autoRunDue then s.makeAutoRun else s) :=
  afterReads_quiet (fun u => if u.autoRunDue then u.makeAutoRun else u) k.2

theorem autoRunDue_of_owed {s : State} (owed : s.mem.autoRun = true) (cycles : 2 ≤ s.cycle.expiries) : s.autoRunDue = true := by
  simp [State.autoRunDue, owed, cycles]

theorem autoRun_not_owed {s : State} (k : Settled s) (notOwed : s.mem.autoRun = false) : exec .autoRun s = .next s := by
  have due : s.autoRunDue = false := by simp [State.autoRunDue, notOwed]
  rw [exec_autoRun k, due]
  exact finish_nil s k.1

/-- An auto-run due out of RUN is made: RUN is entered, or the notice of its refusal given. -/
theorem exec_autoRun_due {s : State} (k : Settled s) (owed : s.mem.autoRun = true) (cycles : 2 ≤ s.cycle.expiries)
    (out : s.runState ≠ .run) :
    exec .autoRun s = finish (match s.runRefusal with
      | some (r, ws) => s.cancelAutoRun.notify .autoRunRefused .none (.pair (reasonCode r) (ws.headD 0))
      | none => s.cancelAutoRun.enterRun) := by
  have running : s.running = false := by simpa [State.running] using out
  rw [exec_autoRun k, autoRunDue_of_owed owed cycles, if_pos rfl, State.makeAutoRun, running]
  rfl

/-- What RUN's entry hands to the units is plain work. -/
theorem enterRun_plain {s : State} (quiet : s.handoffs = []) : Plain s.enterRun.handoffs := by
  unfold State.enterRun
  rw [State.hand_handoffs]
  split <;> simp [quiet, plain]

theorem autoRun_enters {s : State} (k : Settled s) (owed : s.mem.autoRun = true) (cycles : 2 ≤ s.cycle.expiries)
    (out : s.runState ≠ .run) (passes : s.runRefusal = none) :
    ∃ t, exec .autoRun s = .next t ∧ t.calm = ({ s.cancelAutoRun with runState := .run } : State).calm
      ∧ t.desk.lastAnswer = s.desk.lastAnswer := by
  obtain ⟨calm, answer⟩ := settle_plain Config.handoffBound s.cancelAutoRun.enterRun (enterRun_plain k.1)
  refine ⟨_, ?_, calm, answer⟩
  rw [exec_autoRun_due k owed cycles out, passes]
  rfl

theorem autoRun_refused {s : State} (k : Settled s) (owed : s.mem.autoRun = true) (cycles : 2 ≤ s.cycle.expiries)
    (out : s.runState ≠ .run) (empty : s.holders = []) :
    exec .autoRun s = .next (s.cancelAutoRun.notify .autoRunRefused .none (.pair 15 1)) := by
  have refusal : s.runRefusal = some (.missingTable, [1]) := if_pos (List.isEmpty_iff.2 empty)
  rw [exec_autoRun_due k owed cycles out, refusal]
  exact finish_nil _ k.1

/-! ### Account close -/

/-- A change of every district that keeps its record leaves the table records. -/
theorem mapDistricts_work (s : State) {f : District → District} (keeps : ∀ x, ((f x).tab, (f x).damaged) = (x.tab, x.damaged)) :
    RecordWork s { s with districts := s.districts.map fun p => (p.1, f p.2) } := by
  obtain ⟨holders, valves, _, others⟩ := SameRecords.refl s
  refine ⟨⟨holders, valves, fun n => ?_, others⟩, rfl, rfl, rfl⟩
  have e := tblGet_map s.districts (fun p : Nat × District => f p.2) n
  refine (congrArg (Option.map fun x => (x.tab, x.damaged)) e).trans ?_
  rw [Option.map_map]
  exact congrArg (fun g => (s.district n).map g) (funext keeps)

theorem minuteCounts_keeps (x : District) : ((minuteCounts x).tab, (minuteCounts x).damaged) = (x.tab, x.damaged) := by
  unfold minuteCounts
  split <;> rfl

/-- A minute boundary that comes first counts the districts' minutes and has their targets recomputed; the accounts and the
holders stand. -/
theorem minuteFirst (s : State) : ∃ v hs, (if s.minuteDue then s.minuteNow else s) = v.hand hs
    ∧ RecordWork s v ∧ v.acct = s.acct ∧ v.holders = s.holders := by
  split
  · have counted : RecordWork s { s with districts := s.districts.map fun p => (p.1, minuteCounts p.2), minuteDue := false } := by
      obtain ⟨records, handoffs, runState, clock⟩ := mapDistricts_work s minuteCounts_keeps
      exact ⟨records, handoffs, runState, clock⟩
    exact ⟨_, _, rfl, counted, rfl, rfl⟩
  · exact ⟨s, [], by simp [State.hand], .refl s, rfl, rfl⟩

theorem balance_work (s : State) (d : Option Int) : RecordWork s (s.balance d) := by
  unfold State.balance
  repeat' split
  · exact .refl s
  · exact ⟨SameRecords.refl s, rfl, rfl, rfl⟩
  · exact .refl s

theorem balance_ring (s : State) (d : Option Int) : (s.balance d).acct.ring = s.acct.ring := by
  unfold State.balance
  repeat' split
  all_goals rfl

theorem balance_number (s : State) (d : Option Int) : (s.balance d).acct.openAcct.number = s.acct.openAcct.number := by
  unfold State.balance
  repeat' split
  all_goals rfl

theorem append_work (s : State) (r : AccountRecord) : RecordWork s (s.append r) := by
  unfold State.append
  dsimp only
  split <;> exact ⟨SameRecords.refl s, rfl, rfl, rfl⟩

theorem append_ring (s : State) (r : AccountRecord) : (s.append r).acct.ring = s.acct.ring ++ [r] := by
  unfold State.append
  dsimp only
  split <;> rfl

/-- What the close balances: the open account, marked where the closing stock is not clean. -/
def markedOpen (s : State) : State := if s.stockClean then s else s.modAcct fun a => { a with holderBlind := true }

theorem markedOpen_work (s : State) : RecordWork s (markedOpen s) := by
  unfold markedOpen
  split
  · exact .refl s
  · exact modAcct_work s _

theorem markedOpen_ring (s : State) : (markedOpen s).acct.ring = s.acct.ring := by unfold markedOpen; split <;> rfl

theorem markedOpen_number (s : State) : (markedOpen s).acct.openAcct.number = s.acct.openAcct.number := by
  unfold markedOpen; split <;> rfl

/-- The state in which the record of the close is made. -/
def balanced (s : State) : State :=
  (markedOpen s).balance (discrepancyOf (markedOpen s).acct.openAcct s.stockSum s.stockClean)

/-- The record of the close (06 R129). -/
def closeRecord (s : State) : AccountRecord :=
  (balanced s).recordOf (some s.stockSum) (discrepancyOf (markedOpen s).acct.openAcct s.stockSum s.stockClean)

/-- The record appended, and the districts' figures begun anew. -/
def closed (s : State) : State :=
  ({ balanced s with districts := (balanced s).districts.map fun p => (p.1, resetFigures p.2) } : State).append (closeRecord s)

/-- The account opened at the close (06 R130). -/
def nextAccount (s : State) : Account :=
  (closed s).openAccount (nextInterval (closed s).free (closeRecord s).number) s.stockSum s.stockClean

/-- A close in its steps: mark, balance, record, append, open. -/
theorem closeAccount_eq (s : State) : s.closeAccount = { closed s with
    acct := { (closed s).acct with openAcct := nextAccount s }, free := (closed s).free + 1 } := rfl

theorem closeRecord_number (s : State) : (closeRecord s).number = s.acct.openAcct.number :=
  (balance_number _ _).trans (markedOpen_number s)

theorem closeAccount_ring (s : State) : s.closeAccount.acct.ring = s.acct.ring ++ [closeRecord s] := by
  have before : (balanced s).acct.ring = s.acct.ring := (balance_ring _ _).trans (markedOpen_ring s)
  rw [closeAccount_eq, closed, append_ring, before]

theorem closeAccount_number {s : State} (low : s.acct.openAcct.number + 1 < 4294967296) :
    s.closeAccount.acct.openAcct.number = s.acct.openAcct.number + 1 := by
  have next : (nextAccount s).number = nextInterval (closed s).free (closeRecord s).number := rfl
  rw [closeAccount_eq, next, closeRecord_number, nextInterval, if_pos low]

theorem closeAccount_work (s : State) : RecordWork s s.closeAccount := by
  have reset := mapDistricts_work (balanced s) (f := resetFigures) fun _ => rfl
  obtain ⟨records, handoffs, runState, clock⟩ :=
    (((markedOpen_work s).trans (balance_work _ _)).trans reset).trans (append_work _ (closeRecord s))
  rw [closeAccount_eq]
  exact ⟨records, handoffs, runState, clock⟩

theorem exec_accountCloseDue {s : State} (k : Settled s) : exec .accountCloseDue s
    = finish (if s.acct.openAcct.closeDue ≤ s.elapsed then (if s.minuteDue then s.minuteNow else s).accountDue else s) :=
  afterReads_quiet
    (fun u => if u.acct.openAcct.closeDue ≤ u.elapsed then (if u.minuteDue then u.minuteNow else u).accountDue else u) k.2

theorem accountClose_early {s : State} (k : Settled s) (early : s.elapsed < s.acct.openAcct.closeDue) :
    exec .accountCloseDue s = .next s := by
  rw [exec_accountCloseDue k, if_neg (Nat.not_le.2 early), finish_nil s k.1]

/-- An account due with room in the ring is closed, whatever the minute boundary before it hands on. -/
theorem accountClose_closes {s : State} (k : Settled s) (due : s.acct.openAcct.closeDue ≤ s.elapsed)
    (room : s.acct.ring.length < 128) :
    ∃ t r, exec .accountCloseDue s = .next t ∧ t.acct.ring = s.acct.ring ++ [r] ∧ r.number = s.acct.openAcct.number
      ∧ r.stockClose = some s.stockSum
      ∧ (s.acct.openAcct.number + 1 < 4294967296 → t.acct.openAcct.number = s.acct.openAcct.number + 1)
      ∧ t.runState = s.runState ∧ t.clock = s.clock ∧ SameRecords s t := by
  obtain ⟨v, hs, minute, ⟨records, _, runState, clock⟩, acct, holders⟩ := minuteFirst s
  obtain ⟨closeRecords, _, closeRunState, closeClock⟩ := closeAccount_work (v.hand hs)
  have kept := (settle_kept Config.handoffBound (v.hand hs).closeAccount).kept
  have ring : (v.hand hs).closeAccount.acct.ring = s.acct.ring ++ [closeRecord (v.hand hs)] := by
    rw [closeAccount_ring, State.hand_acct, acct]
  have stock : (v.hand hs).stockSum = s.stockSum := by rw [State.stockSum, State.hand_holders, holders, ← State.stockSum]
  have held : (v.hand hs).acct.openAcct.number = s.acct.openAcct.number := by rw [State.hand_acct, acct]
  have close : (v.hand hs).accountDue = (v.hand hs).closeAccount := if_pos (by rw [State.hand_acct, acct]; exact room)
  refine ⟨_, closeRecord (v.hand hs), ?_, (congrArg Standing.ring kept).trans ring, (closeRecord_number _).trans held,
    congrArg some stock, fun low => ?_, ?_, ?_, ?_⟩
  · rw [exec_accountCloseDue k, if_pos due, minute, close]
    rfl
  · rw [← held] at low ⊢
    exact (congrArg Standing.number kept).trans (closeAccount_number low)
  · exact ((congrArg Standing.runState kept).trans closeRunState).trans runState
  · exact ((congrArg Standing.clock kept).trans closeClock).trans clock
  · exact (records.trans closeRecords).trans (.of_kept kept)

/-- A full ring merges the account; in a run of merges no notice is given again. -/
theorem accountClose_merges {s : State} (k : Settled s) (due : s.acct.openAcct.closeDue ≤ s.elapsed)
    (full : 128 ≤ s.acct.ring.length) (minute : s.minuteDue = false) (run : s.acct.mergeRun = true) :
    exec .accountCloseDue s = .next { s with acct := { s.acct with openAcct := { s.acct.openAcct with
      merged := min 255 (s.acct.openAcct.merged + 1), closeDue := s.acct.openAcct.closeDue + 60 * s.acct.openAcct.length } } } := by
  have merge : s.accountDue = s.mergeAccount := if_neg (Nat.not_lt.2 full)
  have first : (if s.minuteDue then s.minuteNow else s) = s := if_neg (by simp [minute])
  rw [exec_accountCloseDue k, if_pos due, first, merge, State.mergeAccount, if_pos run]
  exact finish_nil (s.modAcct _) k.1

/-! ### Start-up: the tables loaded -/

/-- The state at power-on before a block is loaded: the reset values with the queue, the count of free values and the store. -/
def blank (s : State) : State :=
  { State.reset with pending := s.pending, free := s.free, mem := { State.reset.mem with store := s.mem.store } }

def loadBlocks (s : State) (bs : List Block) : State :=
  bs.foldl (fun acc b => match b.content with
    | some c => acc.loadBlock c
    | none => acc) s

/-- The tables as start-up loads them from the blocks of the store that are good. -/
def loaded (s : State) (r : StoreRead) : State := loadBlocks (blank s) (s.mem.store.filter (goodBlock r))

/-- The directory built over the loaded tables, and the meter entries' stations. -/
def furnished (s : State) (r : StoreRead) : State :=
  ((loaded s r).buildDirectory (directoryOf (s.mem.store.filter (goodBlock r))).1
    (directoryOf (s.mem.store.filter (goodBlock r))).2).meterStations

/-- The cycle timer, the aging timer, the auto-run and account 0 of the yard record in force. -/
def timed (u : State) : State :=
  { u with
    cycle := ⟨0, u.yardNow.cyclePeriod, u.yardNow.cyclePeriod, 0⟩
    relay := { u.relay with agingDue := u.yardNow.aging.map (60 * ·) }
    mem := { u.mem with autoRun := u.yardNow.autoRun } }

def accounted (v : State) : State := { v with acct := { v.acct with openAcct := v.openAccount 0 v.stockSum v.stockClean } }

theorem startUp_eq (s : State) (r : StoreRead) :
    s.startUp r = (accounted (timed (furnished s r))).hand (startupHandoffs r s.mem.store) := rfl

/-- What loading leaves: the fields of start-up that no block holds. -/
structure Unloaded (s t : State) : Prop where
  pending : t.pending = s.pending
  handoffs : t.handoffs = s.handoffs
  elapsed : t.elapsed = s.elapsed
  clock : t.clock = s.clock
  runState : t.runState = s.runState
  ring : t.acct.ring = s.acct.ring
  rx : t.desk.rx = s.desk.rx
  mem : t.mem = s.mem

theorem Unloaded.refl (s : State) : Unloaded s s := ⟨rfl, rfl, rfl, rfl, rfl, rfl, rfl, rfl⟩

theorem Unloaded.trans {a b c : State} (h : Unloaded a b) (k : Unloaded b c) : Unloaded a c :=
  ⟨k.pending.trans h.pending, k.handoffs.trans h.handoffs, k.elapsed.trans h.elapsed, k.clock.trans h.clock,
    k.runState.trans h.runState, k.ring.trans h.ring, k.rx.trans h.rx, k.mem.trans h.mem⟩

theorem loadBlock_unloaded (s : State) (c : BlockContent) : Unloaded s (s.loadBlock c) := by
  cases c <;> exact ⟨rfl, rfl, rfl, rfl, rfl, rfl, rfl, rfl⟩

theorem loadBlocks_unloaded (s : State) (bs : List Block) : Unloaded s (loadBlocks s bs) := by
  induction bs generalizing s with
  | nil => exact .refl s
  | cons b bs ih =>
    refine .trans ?_ (ih _)
    dsimp only
    split
    · exact loadBlock_unloaded s _
    · exact .refl s

/-- Blocks that hold nothing load nothing. -/
theorem loadBlocks_skipped (s : State) {bs : List Block} (skip : ∀ b ∈ bs, b.content = none) : loadBlocks s bs = s := by
  induction bs with
  | nil => rfl
  | cons b bs ih =>
    have first : loadBlocks s (b :: bs) = loadBlocks s bs := by rw [loadBlocks, List.foldl_cons, skip b (by simp)]; rfl
    rw [first, ih fun x m => skip x (List.mem_cons_of_mem _ m)]

theorem directoryOf_skipped {bs : List Block} (skip : ∀ b ∈ bs, b.content = none) : directoryOf bs = ([], []) := by
  unfold directoryOf
  induction bs with
  | nil => rfl
  | cons b bs ih =>
    rw [List.foldl_cons, skip b (by simp)]
    exact ih fun x m => skip x (List.mem_cons_of_mem _ m)

/-! ### Start-up: the directory built -/

/-- `t` comes from `s` by work that touches the directory, the relay's counts and the stations of the meter entries alone. -/
structure DirectoryWork (s t : State) : Prop where
  alone : { t with dir := s.dir, relay := s.relay, meters := s.meters } = s
  work : RecordWork s t

theorem DirectoryWork.refl (s : State) : DirectoryWork s s := ⟨rfl, .refl s⟩

theorem DirectoryWork.trans {a b c : State} (h : DirectoryWork a b) (k : DirectoryWork b c) : DirectoryWork a c := by
  refine ⟨?_, h.work.trans k.work⟩
  have step : ({ c with dir := a.dir, relay := a.relay, meters := a.meters } : State)
      = { ({ c with dir := b.dir, relay := b.relay, meters := b.meters } : State) with
          dir := a.dir, relay := a.relay, meters := a.meters } := rfl
  rw [step, k.alone, h.alone]

theorem DirectoryWork.foldl {α : Type} {f : State → α → State} (hf : ∀ s x, DirectoryWork s (f s x)) (l : List α) (s : State) :
    DirectoryWork s (l.foldl f s) := by
  induction l generalizing s with
  | nil => exact .refl s
  | cons x l ih => exact (hf s x).trans (ih _)

theorem DirectoryWork.unloaded {s t : State} (h : DirectoryWork s t) : Unloaded s t := by
  rw [← h.alone]
  exact ⟨rfl, rfl, rfl, rfl, rfl, rfl, rfl, rfl⟩

theorem createEntry_directory (s : State) (st : Nat) (e : DirEntry) : DirectoryWork s (s.createEntry st e) :=
  ⟨rfl, createEntry_work s st e⟩

theorem modEntry_directory (s : State) (st : Nat) (f : DirEntry → DirEntry) : DirectoryWork s (s.modEntry st f) := by
  unfold State.modEntry
  split
  · exact ⟨rfl, setEntry_work s _ _⟩
  · exact .refl s

theorem makeRoom_directory {s t : State} (h : s.makeRoom = some t) : DirectoryWork s t := by
  refine ⟨?_, makeRoom_work h⟩
  unfold State.makeRoom at h
  repeat' split at h
  all_goals cases h <;> rfl

theorem bindAbsent_directory (s : State) (b : Binding × Nat) : DirectoryWork s (s.bindAbsent b) := by
  unfold State.bindAbsent
  split
  · exact .refl s
  · split
    · next room => exact (makeRoom_directory room).trans (createEntry_directory _ _ _)
    · exact .refl s

theorem bindAll_directory (s : State) (bs : List (Binding × Nat)) : DirectoryWork s (s.bindAll bs) :=
  (DirectoryWork.foldl (fun s _ => modEntry_directory s _ _) bs s).trans (.foldl bindAbsent_directory bs _)

theorem buildDirectory_directory (s : State) (static : Tbl (Kept (Option FLine × BitVec 12))) (groups : Tbl (Kept (BitVec 12))) :
    DirectoryWork s (s.buildDirectory static groups) :=
  ((DirectoryWork.foldl (fun s _ => createEntry_directory s _ _) static s).trans (bindAll_directory _ _)).trans
    (.foldl (fun s _ => modEntry_directory s _ _) groups _)

theorem setMeterStation_directory (s : State) (n : Nat) (st : Option Nat) : DirectoryWork s (s.setMeterStation n st) := by
  refine ⟨?_, setMeterStation_work s n st⟩
  unfold State.setMeterStation
  dsimp only
  split <;> rfl

theorem meterStations_directory (s : State) : DirectoryWork s s.meterStations :=
  (DirectoryWork.foldl (fun s _ => setMeterStation_directory s _ _) s.districts s).trans (setMeterStation_directory _ _ _)

theorem furnished_directory (s : State) (r : StoreRead) : DirectoryWork (loaded s r) (furnished s r) :=
  (buildDirectory_directory _ _ _).trans (meterStations_directory _)

/-! ### Start-up: what stands at its end -/

/-- The yard record in force, but for its make meter, is that of the yard record held. -/
theorem yardNow_of_yard {s t : State} (e : (t.yard, t.yardPresent, t.yardDamaged) = (s.yard, s.yardPresent, s.yardDamaged)) :
    t.yardNow.autoRun = s.yardNow.autoRun ∧ t.yardNow.cyclePeriod = s.yardNow.cyclePeriod := by
  simp only [Prod.mk.injEq] at e
  obtain ⟨yard, present, damaged⟩ := e
  simp only [State.yardNow, yard, present, damaged]
  split
  · exact ⟨rfl, rfl⟩
  · exact ⟨rfl, rfl⟩

/-- What start-up leaves at its end, after all that it hands on. -/
structure StartedUp (s : State) (r : StoreRead) (t : State) : Prop where
  records : SameRecords (loaded s r) t
  pending : t.pending = s.pending
  elapsed : t.elapsed = 0
  clock : t.clock = ⟨0, 0, false⟩
  runState : t.runState = .standby
  ring : t.acct.ring = []
  rx : t.desk.rx = []
  store : t.mem.store = s.mem.store
  tracking : t.mem.tracking = 0
  autoRun : t.mem.autoRun = t.yardNow.autoRun
  cycle : t.cycle = ⟨0, t.yardNow.cyclePeriod, t.yardNow.cyclePeriod, 0⟩

theorem exec_powerOnReset (r : StoreRead) (s : State) : exec (.powerOnReset r) s = finish (s.startUp r) := rfl

theorem startUp_ends (s : State) (r : StoreRead) : ∃ t, exec (.powerOnReset r) s = .next t ∧ StartedUp s r t := by
  let t := settle Config.handoffBound (s.startUp r)
  have kept : t.kept = (s.startUp r).kept := (settle_kept _ _).kept
  have base : Unloaded (blank s) (furnished s r) := (loadBlocks_unloaded _ _).trans (furnished_directory s r).unloaded
  have timing : SameRecords (furnished s r) (s.startUp r) := SameRecords.refl (furnished s r)
  have settled : SameRecords (furnished s r) t := timing.trans (.of_kept kept)
  have ⟨_, _, _, _, _, yard, _⟩ := settled
  obtain ⟨autoRun, period⟩ := yardNow_of_yard yard
  have mem : t.mem = { (furnished s r).mem with autoRun := (furnished s r).yardNow.autoRun } := congrArg Standing.mem kept
  exact ⟨t, exec_powerOnReset r s,
    { records := (furnished_directory s r).work.records.trans settled
      pending := (congrArg Standing.pending kept).trans base.pending
      elapsed := (congrArg Standing.elapsed kept).trans base.elapsed
      clock := (congrArg Standing.clock kept).trans base.clock
      runState := (congrArg Standing.runState kept).trans base.runState
      ring := (congrArg Standing.ring kept).trans base.ring
      rx := (congrArg Standing.rx kept).trans base.rx
      store := by rw [mem, base.mem]; rfl
      tracking := by rw [mem, base.mem]; rfl
      autoRun := by rw [mem, autoRun]
      cycle := by rw [period]; exact congrArg Standing.cycle kept }⟩

/-! ### Start-up from a store that holds no table -/

theorem timed_blank (s : State) : timed (blank s) = blank s := by
  have yard : (blank s).yardNow = YardRec.default := rfl
  rw [timed, yard]
  rfl

theorem accounted_blank (s : State) : accounted (blank s) = blank s := by
  have account : (blank s).openAccount 0 (blank s).stockSum (blank s).stockClean = Account.initial := rfl
  rw [accounted, account]
  rfl

theorem furnished_skipped {s : State} {r : StoreRead} (skip : ∀ b ∈ s.mem.store.filter (goodBlock r), b.content = none) :
    furnished s r = blank s := by
  rw [furnished, loaded, loadBlocks_skipped _ skip, directoryOf_skipped skip]
  rfl

theorem startUp_skipped {s : State} {r : StoreRead} (skip : ∀ b ∈ s.mem.store.filter (goodBlock r), b.content = none) :
    s.startUp r = (blank s).hand (startupHandoffs r s.mem.store) := by
  rw [startUp_eq, furnished_skipped skip, timed_blank, accounted_blank]

/-- The notice of a bad block, made first, hands nothing on. -/
theorem settle_blockBad_cons {s : State} (quiet : s.handoffs = []) (n code : Nat) (hs : List Handoff) :
    settle (n + 1) (s.hand (.blockBad code :: hs)) = settle n ((s.notify .storeBlockBad .none (.one code)).hand hs) := by
  have waits : (s.hand (.blockBad code :: hs)).handoffs = .blockBad code :: hs := by simp [quiet]
  rw [settle, waits]
  refine congrArg (settle n) ?_
  simp only [State.hand, act, State.notify, quiet]

/-- Bad blocks are noticed one after another, and nothing else happens. -/
theorem settle_blockBad (bs : List Block) {s : State} (quiet : s.handoffs = []) {n : Nat} (bound : bs.length ≤ n) :
    settle n (s.hand (bs.map fun b => .blockBad b.code)) = bs.foldl (fun acc b => acc.notify .storeBlockBad .none (.one b.code)) s := by
  induction bs generalizing s n with
  | nil =>
    have nothing : s.hand [] = s := by simp [State.hand]
    rw [List.map_nil, nothing, settle_nil n s quiet, List.foldl_nil]
  | cons b bs ih =>
    obtain ⟨m, rfl⟩ : ∃ m, n = m + 1 := Nat.exists_eq_add_one.2 (Nat.lt_of_lt_of_le (Nat.succ_pos _) bound)
    rw [List.map_cons, settle_blockBad_cons quiet, List.foldl_cons]
    exact ih (s := s.notify .storeBlockBad .none (.one b.code)) quiet (Nat.le_of_succ_le_succ bound)

theorem startupHandoffs_silent {r : StoreRead} (silent : r.answers = false) (bs : List Block) :
    startupHandoffs r bs = bs.map fun b => .blockBad b.code := by
  have bad : ∀ b, goodBlock r b = false := fun b => by simp [goodBlock, silent]
  rw [startupHandoffs, List.map_eq_flatMap]
  simp [bad]

/-- A store that does not answer: every block is bad. -/
theorem powerOn_silent {s : State} {r : StoreRead} (silent : r.answers = false) (blocks : s.mem.store.length ≤ Config.handoffBound) :
    exec (.powerOnReset r) s
      = .next (s.mem.store.foldl (fun acc b => acc.notify .storeBlockBad .none (.one b.code)) (blank s)) := by
  have skip : ∀ b ∈ s.mem.store.filter (goodBlock r), b.content = none := fun b m => by
    simp [goodBlock, silent] at m
  have quiet : (blank s).handoffs = [] := rfl
  rw [exec_powerOnReset, startUp_skipped skip, startupHandoffs_silent silent, finish, settle_blockBad _ quiet blocks]

theorem goodBlock_of_good {r : StoreRead} {b : Block} (answers : r.answers = true) (failed : r.failed = []) (good : b.good = true) :
    goodBlock r b = true := by simp [goodBlock, answers, failed, good]

/-- A store that answers with blocks that hold nothing: nothing is loaded and nothing is noticed. -/
theorem powerOn_skipped {s : State} {r : StoreRead} (answers : r.answers = true) (failed : r.failed = [])
    (skip : ∀ b ∈ s.mem.store, b.good = true ∧ b.content = none) : exec (.powerOnReset r) s = .next (blank s) := by
  have nothing : startupHandoffs r s.mem.store = [] := by
    refine List.flatMap_eq_nil_iff.2 fun b m => ?_
    obtain ⟨good, empty⟩ := skip b m
    rw [goodBlock_of_good answers failed good, empty]
    rfl
  rw [exec_powerOnReset, startUp_skipped fun b m => (skip b (List.mem_filter.1 m).1).2, nothing]
  exact finish_nil (blank s) rfl

/-! ### Start-up from the tables of a snapshot -/

/-- The tables of `s0` as start-up takes them from a snapshot, with the runtime fields of power-on. -/
def restored (b s0 : State) : State :=
  { b with
    holders := loadTbl (keepAll s0.holders (·.tab) (·.damaged)) fun r d => ⟨r, d, HolderRt.initial r⟩
    valves := loadTbl (keepAll s0.valves (·.tab) (·.damaged)) valveInitial
    districts := loadTbl (keepAll s0.districts (·.tab) (·.damaged)) fun r d => ⟨r, d, DistrictRt.initial r d, Slot.free⟩
    boosters := loadTbl (keepAll s0.boosters (·.tab) (·.damaged)) Booster.initial
    pool := { b.pool with mode := s0.pool.mode, modeDamaged := s0.pool.modeDamaged }
    meters := loadTbl (keepAll s0.meters (fun m => (m.weight, m.limit)) (·.damaged)) fun r d =>
      { Meter.initial with weight := r.1, limit := r.2, damaged := d }
    yard := s0.yard, yardPresent := s0.yardPresent, yardDamaged := s0.yardDamaged
    lines := ⟨lineInitial (s0.lines.f1.set, s0.lines.f1.damaged), lineInitial (s0.lines.f2.set, s0.lines.f2.damaged),
      lineInitial (s0.lines.f3.set, s0.lines.f3.damaged)⟩
    polls := loadTbl (keepAll s0.polls (·.tab) (·.damaged)) pollInitial, pollHoles := s0.pollHoles
    fill := { b.fill with work := s0.fill.work, pend := s0.fill.pend }
    draw := { b.draw with
      tab := s0.draw.tab, recDamaged := s0.draw.recDamaged, mode := s0.draw.mode, modeDamaged := s0.draw.modeDamaged } }

theorem loadBlocks_snapshot (b s0 : State) : loadBlocks b (s0.snapshot 0#16) = restored b s0 := by
  have each : loadBlocks b (s0.snapshot 0#16) = blockCodes.foldl (fun acc c => acc.loadBlock (s0.blockContent c)) b := by
    rw [loadBlocks, State.snapshot, List.foldl_map]
    simp
  rw [each]
  simp only [blockCodes, List.foldl_cons, List.foldl_nil, State.blockContent, directoryBlock, State.loadBlock, State.modFill,
    State.modDraw, restored]

theorem loaded_snapshot {s s0 : State} {r : StoreRead} (store : s.mem.store = s0.snapshot 0#16) (answers : r.answers = true)
    (failed : r.failed = []) : loaded s r = restored (blank s) s0 := by
  have good : (s0.snapshot 0#16).filter (goodBlock r) = s0.snapshot 0#16 := by
    refine List.filter_eq_self.2 fun b m => goodBlock_of_good answers failed ?_
    obtain ⟨c, _, rfl⟩ := List.mem_map.1 m
    rfl
  rw [loaded, store, good, loadBlocks_snapshot]

/-- What a record keeps in the store it has after start-up. -/
theorem loadTbl_keepAll_view {α β γ δ : Type} (t : Tbl α) (f : α → β) (g : α → Bool) (mk : β → Bool → γ) (view : γ → δ) (n : Nat) :
    (tblGet (loadTbl (keepAll t f g) mk) n).map view = (tblGet t n).map fun a => view (mk (f a) (g a)) := by
  have load := tblGet_map (keepAll t f g) (fun p => mk p.2.1 p.2.2) n
  have keep := tblGet_map t (fun p => (f p.2, g p.2)) n
  rw [loadTbl, load, keepAll, keep, Option.map_map, Option.map_map]
  rfl

theorem restored_holder (b s0 : State) (n : Nat) :
    ((restored b s0).holder n).map (fun x => (x.tab, x.damaged)) = (s0.holder n).map fun x => (x.tab, x.damaged) :=
  loadTbl_keepAll_view s0.holders (·.tab) (·.damaged) (fun r d => (⟨r, d, HolderRt.initial r⟩ : Holder))
    (fun x => (x.tab, x.damaged)) n

theorem restored_valve (b s0 : State) (n : Nat) :
    ((restored b s0).valve n).map (fun x => (x.tab, x.damaged)) = (s0.valve n).map fun x => (x.tab, x.damaged) :=
  loadTbl_keepAll_view s0.valves (·.tab) (·.damaged) valveInitial (fun x => (x.tab, x.damaged)) n

theorem restored_district (b s0 : State) (n : Nat) :
    ((restored b s0).district n).map (fun x => (x.tab, x.damaged)) = (s0.district n).map fun x => (x.tab, x.damaged) :=
  loadTbl_keepAll_view s0.districts (·.tab) (·.damaged) (fun r d => (⟨r, d, DistrictRt.initial r d, Slot.free⟩ : District))
    (fun x => (x.tab, x.damaged)) n

theorem restored_booster (b s0 : State) (n : Nat) :
    ((restored b s0).booster n).map (fun x => (x.tab, x.damaged)) = (s0.booster n).map fun x => (x.tab, x.damaged) :=
  loadTbl_keepAll_view s0.boosters (·.tab) (·.damaged) Booster.initial (fun x => (x.tab, x.damaged)) n

theorem restored_meter (b s0 : State) (n : Nat) :
    (((restored b s0).meter n).weight, ((restored b s0).meter n).limit, ((restored b s0).meter n).damaged)
      = ((s0.meter n).weight, (s0.meter n).limit, (s0.meter n).damaged) := by
  have view := loadTbl_keepAll_view s0.meters (fun m => (m.weight, m.limit)) (·.damaged)
    (fun r d => { Meter.initial with weight := r.1, limit := r.2, damaged := d }) (fun m => (m.weight, m.limit, m.damaged)) n
  have get (s : State) : ((s.meter n).weight, (s.meter n).limit, (s.meter n).damaged)
      = ((tblGet s.meters n).map fun m => (m.weight, m.limit, m.damaged)).getD
          (Meter.initial.weight, Meter.initial.limit, Meter.initial.damaged) := by
    unfold State.meter
    cases tblGet s.meters n <;> rfl
  rw [get, get]
  exact congrArg (Option.getD · _) view

theorem restored_line (b s0 : State) (l : FLine) :
    (((restored b s0).line l).set, ((restored b s0).line l).damaged) = ((s0.line l).set, (s0.line l).damaged) := by cases l <;> rfl

theorem restored_polls (b s0 : State) :
    (restored b s0).polls.map (fun p => (p.1, p.2.tab, p.2.damaged)) = s0.polls.map fun p => (p.1, p.2.tab, p.2.damaged) := by
  simp [restored, loadTbl, keepAll, pollInitial]

/-- Settles O60: the tables loaded stand through the directory's building and all that start-up hands on; the auto-run's entry is plain
work; a close appends its record and opens the account after it. -/
theorem startUpAutoRunAndAccountClose : Obligations.StartUpAutoRunAndAccountClose := by
  refine ⟨fun s r => ⟨?_, fun codes silent => ?_, fun answers failed skip => powerOn_skipped answers failed skip,
      fun s0 store answers failed => ?_⟩,
    fun s k => ⟨autoRun_not_owed k, fun owed cycles out passes => ?_, autoRun_refused k⟩,
    fun s k => ⟨accountClose_early k, accountClose_closes k, accountClose_merges k⟩⟩
  · obtain ⟨t, e, up⟩ := startUp_ends s r
    exact ⟨t, e, up.runState, up.clock, up.elapsed, up.ring, up.rx, up.store, up.tracking, up.pending⟩
  · have length := congrArg List.length codes
    rw [List.length_map] at length
    exact powerOn_silent silent (by rw [length]; decide)
  · obtain ⟨t, e, up⟩ := startUp_ends s r
    have records := up.records
    rw [loaded_snapshot store answers failed] at records
    obtain ⟨holders, valves, districts, boosters, meters, yard, lines, polls, holes, draw, pool, fill⟩ := records
    exact ⟨t, e, fun n => (holders n).trans (restored_holder _ s0 n), fun n => (valves n).trans (restored_valve _ s0 n),
      fun n => (districts n).trans (restored_district _ s0 n), fun n => (boosters n).trans (restored_booster _ s0 n),
      fun n => (meters n).trans (restored_meter _ s0 n), yard, fun l => (lines l).trans (restored_line _ s0 l),
      (congrArg (List.map _) polls).trans (restored_polls _ s0), holes, draw, pool, fill, up.runState, up.elapsed, up.autoRun, up.cycle⟩
  · obtain ⟨t, e, calm, answer⟩ := autoRun_enters k owed cycles out passes
    have records : SameRecords s ({ s.cancelAutoRun with runState := .run } : State) := SameRecords.refl s
    have samples : SameSamples s ({ s.cancelAutoRun with runState := .run } : State) := SameSamples.refl s
    exact ⟨t, e, congrArg Calm.runState calm, .of_calm calm, records.trans (.of_calm calm), samples.trans (.of_calm calm), answer⟩

end Sys2Proof.AccountProofs
end

section
/-! Proofs of the family of the station directory: the desk directory write (08 R160, R165), WATCH, SEARCH, DELETE and CLEAR
(08 R172-R174). -/

namespace Sys2Proof.DirectoryProofs

open Sys2Proof Sys2Proof.Machine Sys2Proof.DistrictProofs Sys2Proof.AccountProofs

/-! ### DELETE and CLEAR -/

theorem inRange_of_le {a b n : Nat} (l : a ≤ n) (u : n ≤ b) : inRange a b n = true := decide_eq_true ⟨l, u⟩

theorem not_station {n : Nat} (out : n = 0 ∨ 199 < n) : inRange 1 199 n = false := decide_eq_false (by omega)

theorem exec_delete {s : State} {h : AskHead} {station : Nat} (t : Takes s h 13) :
    exec (.delete h station) s = finish (s.doDelete h.tag station) := afterReads_takeAsk t _

theorem exec_clear {s : State} {h : AskHead} (t : Takes s h 14) : exec (.clear h) s = finish (s.doClear h.tag) :=
  afterReads_takeAsk t _

theorem doDelete_bad (s : State) {station : Nat} (tag : Nat) (out : station = 0 ∨ 199 < station) :
    s.doDelete tag station = s.bad tag 13 2 := by
  rw [State.doDelete, not_station out]
  rfl

theorem doDelete_absent {s : State} {station : Nat} (tag : Nat) (l : 1 ≤ station) (u : station ≤ 199)
    (absent : s.entry station = none) : s.doDelete tag station = s.reply tag 13 .notFound [] := by
  rw [State.doDelete, inRange_of_le l u, absent]
  rfl

/-- A station that has an entry is refused where it is BOUND, and goes where it is not. -/
theorem doDelete_present {s : State} {station : Nat} {e : DirEntry} (tag : Nat) (l : 1 ≤ station) (u : station ≤ 199)
    (held : s.entry station = some e) : s.doDelete tag station = if e.kind = .bound then s.reply tag 13 .badState []
      else (s.removeEntry station).tableWritten.reply tag 13 .done [] := by
  rw [State.doDelete, inRange_of_le l u, held]
  rfl

/-- A request that writes a table while no sweep runs, and hands nothing on, ends with DONE and its words. -/
theorem finish_written {s : State} {h : AskHead} {code : Nat} {ws : List Nat} (quiet : s.handoffs = [])
    (room : s.desk.tx.length < Config.deskTxCap) (idle : s.mem.sweep = false) :
    finish (s.tableWritten.reply h.tag code .done ws) = .next (s.answered h code .done none (.words ws)) := by
  rw [tableWritten_quiet idle]
  exact finish_reply s h code .done none _ quiet room

/-- Settles O38: an entry that is not BOUND goes, or every LEARNED one, and nothing but the answer is handed on. -/
theorem deleteAndClearRemoveEntries : Obligations.DeleteAndClearRemoveEntries := by
  refine ⟨fun s h station t => ⟨fun out => ?_, fun l u absent => ?_, fun e l u held bound => ?_, fun e l u held other idle => ?_⟩,
    fun s h t idle => ?_⟩
  · rw [exec_delete t, doDelete_bad s h.tag out, finish_bad t]
  · rw [exec_delete t, doDelete_absent h.tag l u absent, finish_words t]
  · rw [exec_delete t, doDelete_present h.tag l u held, if_pos bound, finish_words t]
  · rw [exec_delete t, doDelete_present h.tag l u held, if_neg other]
    exact finish_written (s := s.removeEntry station) (quiet_of_takes t) (room_of_takes t) idle
  · rw [exec_clear t]
    exact finish_written (s := { s with dir := dropLearned s.dir }) (quiet_of_takes t) (room_of_takes t) idle

/-! ### WATCH -/

theorem exec_watch {s : State} {h : AskHead} {station setting : Nat} (t : Takes s h 11) :
    exec (.watch h station setting) s = finish (s.doWatch h.tag station setting) := afterReads_takeAsk t _

theorem doWatch_badStation (s : State) {station : Nat} (tag setting : Nat) (out : station = 0 ∨ 199 < station) :
    s.doWatch tag station setting = s.reply tag 11 .bad (2 :: watchList s.dir) := by
  rw [State.doWatch, not_station out]
  rfl

theorem doWatch_badSetting (s : State) {station setting : Nat} (tag : Nat) (l : 1 ≤ station) (u : station ≤ 199) (wrong : 1 < setting) :
    s.doWatch tag station setting = s.reply tag 11 .bad (3 :: watchList s.dir) := by
  rw [State.doWatch, inRange_of_le l u, if_neg (by decide), if_pos wrong]

theorem doWatch_absent {s : State} {station setting : Nat} (tag : Nat) (l : 1 ≤ station) (u : station ≤ 199) (right : setting ≤ 1)
    (absent : s.entry station = none) : s.doWatch tag station setting = s.reply tag 11 .notFound (watchList s.dir) := by
  rw [State.doWatch, inRange_of_le l u, if_neg (by decide), if_neg (Nat.not_lt.2 right), absent]
  rfl

theorem doWatch_full {s : State} {station setting : Nat} {e : DirEntry} (tag : Nat) (l : 1 ≤ station) (u : station ≤ 199)
    (right : setting ≤ 1) (held : s.entry station = some e) (full : s.setWatch station (setting == 0) = none) :
    s.doWatch tag station setting = s.reply tag 11 .full (watchList s.dir) := by
  rw [State.doWatch, inRange_of_le l u, if_neg (by decide), if_neg (Nat.not_lt.2 right), held, full]
  rfl

theorem doWatch_done {s v : State} {station setting : Nat} {e : DirEntry} (tag : Nat) (l : 1 ≤ station) (u : station ≤ 199)
    (right : setting ≤ 1) (held : s.entry station = some e) (set : s.setWatch station (setting == 0) = some v) :
    s.doWatch tag station setting = v.reply tag 11 .done (watchList v.dir) := by
  rw [State.doWatch, inRange_of_le l u, if_neg (by decide), if_neg (Nat.not_lt.2 right), held, set]
  rfl

theorem setWatch_on_full {s : State} {station : Nat} {e : DirEntry} (held : s.entry station = some e) (off : e.watch = false)
    (four : 4 ≤ (watchList s.dir).length) : s.setWatch station true = none := by
  have cap : Config.watchCap ≤ (watchList s.dir).length := four
  simp [State.setWatch, held, off, cap]

theorem setWatch_on {s : State} {station : Nat} {e : DirEntry} (held : s.entry station = some e)
    (room : e.watch = true ∨ (watchList s.dir).length < 4) :
    s.setWatch station true = some (s.setEntry station { e with watch := true }) := by
  have free : ¬ (e.watch = false ∧ Config.watchCap ≤ (watchList s.dir).length) := by
    rintro ⟨off, cap⟩
    exact room.elim (by simp [off]) (Nat.not_lt.2 cap)
  simpa [State.setWatch, held] using free

theorem setWatch_off {s : State} {station : Nat} {e : DirEntry} (held : s.entry station = some e) :
    s.setWatch station false = some (s.setEntry station { e with watch := false }) := by
  simp [State.setWatch, held]

/-- An entry whose flag is written is answered with the watch list after the write. -/
theorem watch_done {s : State} {h : AskHead} {station setting : Nat} {e f : DirEntry} (t : Takes s h 11) (l : 1 ≤ station)
    (u : station ≤ 199) (right : setting ≤ 1) (held : s.entry station = some e)
    (set : s.setWatch station (setting == 0) = some (s.setEntry station f)) :
    exec (.watch h station setting) s
      = .next ((s.setEntry station f).answered h 11 .done none (.words (watchList (tblPut s.dir station f)))) := by
  rw [exec_watch t, doWatch_done h.tag l u right held set]
  exact finish_reply _ h 11 .done none _ (quiet_of_takes t) (room_of_takes t)

/-! ### SEARCH -/

theorem exec_search {s : State} {h : AskHead} {start line kind group : Nat} (t : Takes s h 12) :
    exec (.search h start line kind group) s = finish (s.doSearch h.tag start line kind group) := afterReads_takeAsk t _

theorem doSearch_badStart (s : State) {start : Nat} (tag line kind group : Nat) (out : start = 0 ∨ 199 < start) :
    s.doSearch tag start line kind group = s.bad tag 12 2 := by
  rw [State.doSearch, not_station out]
  rfl

theorem doSearch_inRange (s : State) {start line kind group : Nat} (tag : Nat) (l : 1 ≤ start) (u : start ≤ 199) (lines : line ≤ 4)
    (kinds : kind ≤ 3) (groups : group = 0 ∨ (200 ≤ group ∧ group ≤ 211)) :
    s.doSearch tag start line kind group = s.replyData tag 12 (searchAnswer s.dir start line kind group) := by
  have filter : (group == 0 || inRange 200 211 group) = true := by simpa [inRange] using groups
  rw [State.doSearch, inRange_of_le l u, filter, if_neg (by decide), if_neg (Nat.not_lt.2 lines), if_neg (Nat.not_lt.2 kinds)]
  rfl

/-- Settles O37: the checks of WATCH and then its two settings; SEARCH in range answers from the directory as it stands. -/
theorem watchAndSearchTheDirectory : Obligations.WatchAndSearchTheDirectory := by
  refine ⟨fun s h station setting t => ⟨fun out => ?_, fun l u wrong => ?_, fun l u right absent => ?_,
      fun e l u held off four => ?_, fun e l u held room => ?_, fun e l u held => ?_⟩,
    fun s h start line kind group t => ⟨fun out => ?_, fun l u lines kinds groups => ?_⟩⟩
  · rw [exec_watch t, doWatch_badStation s h.tag setting out, finish_words t]
  · rw [exec_watch t, doWatch_badSetting s h.tag l u wrong, finish_words t]
  · rw [exec_watch t, doWatch_absent h.tag l u right absent, finish_words t]
  · rw [exec_watch t, doWatch_full h.tag l u (Nat.zero_le 1) held (setWatch_on_full held off four), finish_words t]
  · exact watch_done t l u (Nat.zero_le 1) held (setWatch_on held room)
  · exact watch_done t l u (Nat.le_refl 1) held (setWatch_off held)
  · rw [exec_search t, doSearch_badStart s h.tag line kind group out, finish_bad t]
  · rw [exec_search t, doSearch_inRange s h.tag l u lines kinds groups]
    exact finish_reply s h 12 .done none _ (quiet_of_takes t) (room_of_takes t)

/-! ### Tables in their canonical form -/

theorem tblWf_cons {α : Type} {k : Nat} {a : α} {t : Tbl α} :
    tblWf ((k, a) :: t) = true ↔ (∀ p ∈ t, k < p.1) ∧ tblWf t = true := by
  simp [tblWf]

/-- A canonical table holds each number once. -/
theorem tblGet_of_mem {α : Type} {t : Tbl α} {n : Nat} {a : α} (wf : tblWf t = true) (m : (n, a) ∈ t) : tblGet t n = some a := by
  induction t with
  | nil => cases m
  | cons p t ih =>
    obtain ⟨k, b⟩ := p
    obtain ⟨above, wf⟩ := tblWf_cons.1 wf
    rcases List.mem_cons.1 m with e | m
    · cases e
      simp [tblGet]
    · have later : k ≠ n := Nat.ne_of_lt (above _ m)
      rw [tblGet, if_neg later, ih wf m]

theorem tblGet_none {α : Type} {t : Tbl α} {n : Nat} (other : ∀ p ∈ t, p.1 ≠ n) : tblGet t n = none :=
  Option.eq_none_iff_forall_ne_some.2 fun _ held => other _ (mem_of_tblGet held) rfl

theorem tblGet_tblDel {α : Type} {t : Tbl α} (wf : tblWf t = true) (n m : Nat) :
    tblGet (tblDel t n) m = if m = n then none else tblGet t m := by
  induction t with
  | nil => simp [tblDel, tblGet]
  | cons p t ih =>
    obtain ⟨k, b⟩ := p
    obtain ⟨above, wf⟩ := tblWf_cons.1 wf
    by_cases e : k = n
    · subst e
      rw [tblDel, if_pos rfl]
      split
      · next same => exact tblGet_none fun p h => by have := above p h; omega
      · next other => rw [tblGet, if_neg (Ne.symm other)]
    · rw [tblDel, if_neg e]
      simp only [tblGet, ih wf]
      split
      · next here => rw [if_neg (fun same => e (here.trans same))]
      · rfl

/-! ### The LEARNED entry to evict -/

/-- The older of the LEARNED entry found so far and the one looked at. -/
def older (best : Option (Nat × DirEntry)) (p : Nat × DirEntry) : Option (Nat × DirEntry) :=
  if p.2.kind = .learned then
    match best with
    | none => some p
    | some q => if p.2.seq < q.2.seq then some p else some q
  else best

theorem oldestLearned_eq_foldl (t : Tbl DirEntry) : oldestLearned t = (t.foldl older none).map (·.1) := rfl

/-- Every entry found so far is younger than `q`. -/
def Younger (q : Nat × DirEntry) (best : Option (Nat × DirEntry)) : Prop := ∀ p ∈ best, q.2.seq < p.2.seq

theorem older_of_younger {q : Nat × DirEntry} {best : Option (Nat × DirEntry)} (learned : q.2.kind = .learned) (y : Younger q best) :
    older best q = some q := by
  refine (if_pos learned).trans ?_
  cases best with
  | none => rfl
  | some p => exact if_pos (y p rfl)

theorem older_stays {q p : Nat × DirEntry} (later : p.2.kind = .learned → q.2.seq ≤ p.2.seq) : older (some q) p = some q := by
  unfold older
  split
  · next learned => exact if_neg (Nat.not_lt.2 (later learned))
  · rfl

theorem older_younger {q p : Nat × DirEntry} {best : Option (Nat × DirEntry)} (y : Younger q best)
    (later : p.2.kind = .learned → q.2.seq < p.2.seq) : Younger q (older best p) := by
  unfold older
  split
  · next learned =>
    have here : Younger q (some p) := fun _ e => Option.some.inj e ▸ later learned
    cases best with
    | none => exact here
    | some b =>
      dsimp only
      split
      · exact here
      · exact y
  · exact y

theorem foldl_older_stays {q : Nat × DirEntry} {t : Tbl DirEntry} (later : ∀ p ∈ t, p.2.kind = .learned → q.2.seq ≤ p.2.seq) :
    t.foldl older (some q) = some q := by
  induction t with
  | nil => rfl
  | cons p t ih => rw [List.foldl_cons, older_stays (later p (by simp)), ih fun x m => later x (List.mem_cons_of_mem _ m)]

/-- The oldest LEARNED entry of a table is found, whatever younger one was found before. -/
theorem foldl_older_eq {q : Nat × DirEntry} {t : Tbl DirEntry} {best : Option (Nat × DirEntry)} (learned : q.2.kind = .learned)
    (held : q ∈ t) (oldest : ∀ p ∈ t, p.2.kind = .learned → p ≠ q → q.2.seq < p.2.seq) (y : Younger q best) :
    t.foldl older best = some q := by
  induction t generalizing best with
  | nil => cases held
  | cons p t ih =>
    have rest : ∀ x ∈ t, x.2.kind = .learned → x ≠ q → q.2.seq < x.2.seq := fun x m => oldest x (List.mem_cons_of_mem _ m)
    rw [List.foldl_cons]
    by_cases e : p = q
    · rw [e, older_of_younger learned y]
      refine foldl_older_stays fun x m k => ?_
      by_cases same : x = q
      · exact Nat.le_of_eq (congrArg (·.2.seq) same.symm)
      · exact Nat.le_of_lt (rest x m k same)
    · have later : q ∈ t := (List.mem_cons.1 held).resolve_left (Ne.symm e)
      exact ih later rest (older_younger y fun k => oldest p (by simp) k e)

theorem oldestLearned_eq {t : Tbl DirEntry} {v : Nat} {e : DirEntry} (wf : tblWf t = true) (held : tblGet t v = some e)
    (learned : e.kind = .learned) (oldest : ∀ m f, tblGet t m = some f → f.kind = .learned → m ≠ v → e.seq < f.seq) :
    oldestLearned t = some v := by
  have found : t.foldl older none = some (v, e) := by
    refine foldl_older_eq learned (mem_of_tblGet held) (fun p m k other => ?_) (fun _ nothing => by cases nothing)
    have get : tblGet t p.1 = some p.2 := tblGet_of_mem wf m
    refine oldest p.1 p.2 get k fun same => other (Prod.ext same ?_)
    rw [same, held] at get
    exact (Option.some.inj get).symm
  rw [oldestLearned_eq_foldl, found]
  rfl

theorem oldestLearned_none {t : Tbl DirEntry} (fixed : ∀ p ∈ t, p.2.kind ≠ .learned) : oldestLearned t = none := by
  rw [oldestLearned_eq_foldl]
  induction t with
  | nil => rfl
  | cons p t ih =>
    have passed : older none p = none := if_neg (fixed p (by simp))
    rw [List.foldl_cons, passed, ih fun x m => fixed x (List.mem_cons_of_mem _ m)]

theorem makeRoom_free {s : State} (room : s.dir.length < 64) : s.makeRoom = some s := if_pos room

theorem makeRoom_full {s : State} (full : 64 ≤ s.dir.length) : s.makeRoom = (oldestLearned s.dir).map s.removeEntry := by
  have noPlace : ¬ s.dir.length < Config.dirCap := Nat.not_lt.2 full
  rw [State.makeRoom, if_neg noPlace]
  cases oldestLearned s.dir <;> rfl

/-! ### Work on the line queues -/

/-- `t` comes from `s` by work on the field lines alone. -/
def LineWork (s t : State) : Prop := t = { s with lines := t.lines }

theorem LineWork.refl (s : State) : LineWork s s := rfl

theorem LineWork.trans {a b c : State} (h : LineWork a b) (k : LineWork b c) : LineWork a c := by
  unfold LineWork at *
  rw [k, h]

theorem LineWork.foldl {α : Type} {f : State → α → State} (hf : ∀ s x, LineWork s (f s x)) (l : List α) (s : State) :
    LineWork s (l.foldl f s) := by
  induction l generalizing s with
  | nil => exact .refl s
  | cons x l ih => exact (hf s x).trans (ih _)

theorem setLine_lineWork (s : State) (l : FLine) (u : LineUnit) : LineWork s (s.setLine l u) := by cases l <;> rfl

theorem place_lineWork (s : State) (l : FLine) (f : LineUnit → LineUnit) : LineWork s (s.place l f) := setLine_lineWork s l _

theorem moveQueued_lineWork (s : State) (station : Nat) (old new : FLine) : LineWork s (s.moveQueued station old new) := by
  unfold State.moveQueued
  split
  · exact .refl s
  · exact (setLine_lineWork s _ _).trans (place_lineWork _ _ _)

theorem gatherPolls_lineWork (s : State) (station : Nat) (new : FLine) : LineWork s (s.gatherPolls station new) := by
  unfold State.gatherPolls
  refine .foldl (fun acc l => ?_) allLines s
  split
  · exact .refl acc
  · exact (setLine_lineWork acc _ _).trans (place_lineWork _ _ _)

/-! ### The desk directory write -/

/-- The entry that a write makes of one held (08 R165). -/
def rewritten (e : DirEntry) (r : DirWrite) : DirEntry :=
  { e with kind := if e.kind = .learned then .static else e.kind, line := r.line, groups := r.groups, damaged := false }

/-- The entry is written in its place, and the telegrams queued for the station may move. -/
theorem writeDirectory_present {s : State} {r : DirWrite} {e : DirEntry} (held : s.entry r.station = some e) :
    ∃ u, s.writeDirectory r = .ok u ∧ LineWork (s.setEntry r.station (rewritten e r)) u := by
  unfold State.writeDirectory
  rw [held]
  refine ⟨_, rfl, ?_⟩
  split
  · exact moveQueued_lineWork _ _ _ _
  · exact gatherPolls_lineWork _ _ _
  · exact .refl _

/-- An absent station for which there is room is given a STATIC entry. -/
theorem writeDirectory_absent {s t : State} {r : DirWrite} (absent : s.entry r.station = none) (room : s.makeRoom = some t) :
    ∃ u, s.writeDirectory r = .ok u
      ∧ LineWork (t.createEntry r.station (freshEntry r.line .static none false r.groups)) u := by
  unfold State.writeDirectory
  rw [absent, room]
  refine ⟨_, rfl, ?_⟩
  split
  · exact gatherPolls_lineWork _ _ _
  · exact .refl _

theorem writeDirectory_full {s : State} {r : DirWrite} (absent : s.entry r.station = none) (full : s.makeRoom = none) :
    s.writeDirectory r = .error .full := by
  unfold State.writeDirectory
  rw [absent, full]

theorem exec_writeDirectoryEntry {s : State} {h : AskHead} {r : DirWrite} (t : Takes s h 2) (l : 1 ≤ r.station) (u : r.station ≤ 199) :
    exec (.writeDirectoryEntry h r.station r) s = finish (s.unstaged.writeDir h.tag r.station 0 r) := by
  have index : writeRefusal 11 r.station 0 = none := by simp [writeRefusal, indexOk, writable, inRange, l, u]
  refine (afterReads_takeAsk t _).trans ?_
  rw [State.writeTyped, index]
  rfl

/-- The write of the entry of its own station passes the check of its words. -/
theorem checkStation_ok {r : DirWrite} (l : 1 ≤ r.station) (u : r.station ≤ 199) :
    checkEntry [(0, r.station == r.station && inRange 1 199 r.station)] true = .ok := by
  simp [checkEntry, firstWrong, inRange, l, u]

theorem writeDir_ok {s v : State} {r : DirWrite} (tag : Nat) (l : 1 ≤ r.station) (u : r.station ≤ 199)
    (ok : s.writeDirectory r = .ok v) : s.writeDir tag r.station 0 r = v.taken tag := by
  rw [State.writeDir, checkStation_ok l u, State.checked, ok]

theorem writeDir_refused {s : State} {r : DirWrite} {e : Result} (tag : Nat) (l : 1 ≤ r.station) (u : r.station ≤ 199)
    (refused : s.writeDirectory r = .error e) : s.writeDir tag r.station 0 r = (s.countRefusal e).reply tag 2 e [] := by
  rw [State.writeDir, checkStation_ok l u, State.checked, refused]

/-- What stands once a write that left `w` has been taken and answered. -/
structure DirectoryWritten (w t : State) (h : AskHead) : Prop where
  entry : ∀ m, t.entry m = w.entry m
  relay : t.relay = w.relay
  answer : t.desk.lastAnswer = some ⟨h.tag, 2, .done, none, .words []⟩

theorem tableWritten_dir (s : State) : s.tableWritten.dir = s.dir := by unfold State.tableWritten; split <;> rfl

theorem tableWritten_relay (s : State) : s.tableWritten.relay = s.relay := by unfold State.tableWritten; split <;> rfl

/-- A directory write that hands nothing on: the directory and the relay's counts stand through the sweep's abort and the answer. -/
theorem finish_taken_directory {w u : State} (h : AskHead) (lines : LineWork w u) (quiet : w.handoffs = []) :
    ∃ t, finish (u.taken h.tag) = .next t ∧ DirectoryWritten w t h := by
  have made : (u.taken h.tag).handoffs = [.reply h.tag 2 .done none (.words [])] := by
    have still : u.tableWritten.handoffs = [] := by rw [(tableWritten_work u).handoffs, lines, quiet]
    rw [State.taken, State.reply, State.hand_handoffs, still]
    rfl
  have dir : u.tableWritten.dir = w.dir := by rw [tableWritten_dir, lines]
  have relay : u.tableWritten.relay = w.relay := by rw [tableWritten_relay, lines]
  exact ⟨_, finish_one _ _ made fun _ => rfl, fun m => congrArg (tblGet · m) dir, relay, placeAnswer_lastAnswer ..⟩

/-- A directory write that leaves `w`, but for what it moves on the lines, is answered DONE. -/
theorem writeDirectoryEntry_taken {s w : State} {h : AskHead} {r : DirWrite} (t : Takes s h 2) (l : 1 ≤ r.station) (u : r.station ≤ 199)
    (written : ∃ v, s.unstaged.writeDirectory r = .ok v ∧ LineWork w v) (quiet : w.handoffs = s.handoffs) :
    ∃ v, exec (.writeDirectoryEntry h r.station r) s = .next v ∧ DirectoryWritten w v h := by
  obtain ⟨v, ok, lines⟩ := written
  rw [exec_writeDirectoryEntry t l u, writeDir_ok h.tag l u ok]
  exact finish_taken_directory h lines (quiet.trans (quiet_of_takes t))

theorem entry_createEntry (s : State) (station m : Nat) (e : DirEntry) : (s.createEntry station e).entry m
    = if m = station then some { e with seq := s.relay.creation + 1 } else s.entry m := tblGet_tblPut _ _ _ _

theorem entry_removeEntry {s : State} (wf : tblWf s.dir = true) (v m : Nat) :
    (s.removeEntry v).entry m = if m = v then none else s.entry m := tblGet_tblDel wf v m

/-- Settles O25: a write changes an entry held, or creates one after room has been made for it, or finds no room. -/
theorem directoryEntryIsWritten : Obligations.DirectoryEntryIsWritten := by
  refine fun s h r t l u => ⟨fun e held => ?_, fun absent free => ?_, fun absent full fixed => ?_,
    fun v e absent full wf held learned oldest => ?_, fun e => rfl⟩
  · obtain ⟨w, done, entry, _, answer⟩ := writeDirectoryEntry_taken t l u (writeDirectory_present (s := s.unstaged) held) rfl
    refine ⟨w, done, ?_, fun m other => ?_, answer⟩
    · rw [entry, State.entry_setEntry, if_pos rfl]
      rfl
    · rw [entry, State.entry_setEntry, if_neg other]
      rfl
  · have room : s.unstaged.makeRoom = some s.unstaged := makeRoom_free free
    obtain ⟨w, done, entry, relay, answer⟩ := writeDirectoryEntry_taken t l u (writeDirectory_absent absent room) rfl
    refine ⟨w, done, ?_, by rw [relay]; rfl, fun m other => ?_, answer⟩
    · rw [entry, entry_createEntry, if_pos rfl]
      rfl
    · rw [entry, entry_createEntry, if_neg other]
      rfl
  · have noRoom : s.unstaged.makeRoom = none := by
      rw [makeRoom_full (s := s.unstaged) full, oldestLearned_none (t := s.unstaged.dir) fixed]
      rfl
    have refused : s.unstaged.writeDirectory r = .error .full := writeDirectory_full absent noRoom
    rw [exec_writeDirectoryEntry t l u, writeDir_refused h.tag l u refused]
    exact finish_refused t .full
  · have room : s.unstaged.makeRoom = some (s.unstaged.removeEntry v) := by
      rw [makeRoom_full (s := s.unstaged) full, oldestLearned_eq (t := s.unstaged.dir) wf held learned oldest]
      rfl
    have apart : v ≠ r.station := fun same => by simp [← same, held] at absent
    obtain ⟨w, done, entry, relay, answer⟩ := writeDirectoryEntry_taken t l u (writeDirectory_absent absent room) rfl
    have gone := entry_removeEntry (s := s.unstaged) wf v
    refine ⟨w, done, ?_, ?_, fun m other kept => ?_, by rw [relay]; rfl, answer⟩
    · rw [entry, entry_createEntry, if_neg apart, gone, if_pos rfl]
    · rw [entry, entry_createEntry, if_pos rfl]
      rfl
    · rw [entry, entry_createEntry, if_neg other, gone, if_neg kept]
      rfl

end Sys2Proof.DirectoryProofs
end

section
/-! Proofs of the family of the poll sequencer: the poll list write (09 R177, 10 R196), RUN (09 R188, 10 R199), and the loss and the
finding of a station (09 R182-R184). -/

namespace Sys2Proof.PollProofs

open Sys2Proof Sys2Proof.Machine Sys2Proof.DistrictProofs Sys2Proof.AccountProofs Sys2Proof.DirectoryProofs

/-! ### The poll list position -/

theorem writeRefusal_poll {n : Nat} (l : 1 ≤ n) (u : n ≤ 48) : writeRefusal 9 n 0 = none := by
  simp [writeRefusal, indexOk, writable, inRange, l, u]

theorem exec_writePollPosition {s : State} {h : AskHead} {n : Nat} {r : PollRec} (t : Takes s h 2) (l : 1 ≤ n) (u : n ≤ 48) :
    exec (.writePollPosition h n (some r)) s = finish (s.unstaged.writePoll h.tag n 0 r) := by
  refine (afterReads_takeAsk t _).trans ?_
  rw [State.writeTyped, writeRefusal_poll l u]
  rfl

theorem exec_emptyPollPosition {s : State} {h : AskHead} {n : Nat} (t : Takes s h 2) (l : 1 ≤ n) (u : n ≤ 48) :
    exec (.writePollPosition h n none) s = finish ((s.unstaged.emptyPoll n).taken h.tag) := by
  refine (afterReads_takeAsk t _).trans ?_
  rw [State.writeTyped, writeRefusal_poll l u]
  rfl

theorem exec_removePollPosition {s : State} {h : AskHead} {n : Nat} (t : Takes s h 2) (l : 1 ≤ n) (u : n ≤ 48) :
    exec (.removeRecord h 9 n) s = finish ((s.unstaged.emptyPoll n).taken h.tag) := by
  refine (afterReads_takeAsk t _).trans ?_
  rw [State.doWriteEntry, writeRefusal_poll l u]
  rfl

/-- The ranges of a poll entry's words (09 Table 9.1). -/
structure PollInRange (r : PollRec) : Prop where
  station : 1 ≤ r.station ∧ r.station ≤ 199
  retries : r.retries ≤ 3
  cls : r.cls ≤ 4
  nth : 1 ≤ r.nth ∧ r.nth ≤ 16

theorem checkPoll_ok {r : PollRec} (ok : PollInRange r) : checkPoll r = .ok := by
  simp [checkPoll, checkEntry, firstWrong, inRange, ok.station, ok.retries, ok.cls, ok.nth]

/-- A poll entry whose words are in range is refused for another position's enabled entry, or taken. -/
theorem writePoll_ok (s : State) {n : Nat} {r : PollRec} (tag : Nat) (ok : PollInRange r) :
    s.writePoll tag n 0 r = if s.pollConflict n r then s.reply tag 2 .conflict [] else (s.takePoll n r).taken tag := by
  rw [State.writePoll, checkPoll_ok ok, State.checked]

/-- What a position holds after a write: the runtime stays where the station is the one held (09 R177). -/
def rewrittenPoll (held : Option PollPos) (r : PollRec) : PollPos :=
  match held with
  | some p => if p.tab.station = r.station then { p with tab := r, damaged := false } else pollInitial r false
  | none => pollInitial r false

theorem takePoll_eq (s : State) (n : Nat) (r : PollRec) : s.takePoll n r =
    { s with pollHoles := setErase n s.pollHoles, polls := tblPut s.polls n (rewrittenPoll (s.poll n) r) } := by
  unfold State.takePoll rewrittenPoll
  cases s.poll n with
  | none => rfl
  | some p => exact (apply_ite (State.setPoll _ n) _ _ _).symm

/-- Settles O24: the entry in range is refused for a conflict or taken, and both rows that empty a position do the same. -/
theorem pollPositionIsWritten : Obligations.PollPositionIsWritten := by
  refine fun s h n t l u => ⟨fun r s1 s2 retries cls n1 n2 => ?_, fun idle => ⟨?_, ?_⟩⟩
  · have ok : PollInRange r := ⟨⟨s1, s2⟩, retries, cls, ⟨n1, n2⟩⟩
    refine ⟨fun conflict => ?_, fun free idle => ?_⟩
    · have held : s.unstaged.pollConflict n r = true := conflict
      rw [exec_writePollPosition t l u, writePoll_ok _ h.tag ok, if_pos held, finish_unstaged_reply t]
    · have alone : ¬ s.unstaged.pollConflict n r = true := Bool.eq_false_iff.1 free
      rw [exec_writePollPosition t l u, writePoll_ok _ h.tag ok, if_neg alone, takePoll_eq]
      exact finish_taken_alone h (quiet_of_takes t) (room_of_takes t) idle
  · rw [exec_emptyPollPosition t l u]
    exact finish_taken_alone h (quiet_of_takes t) (room_of_takes t) idle
  · rw [exec_emptyPollPosition t l u, exec_removePollPosition t l u]

/-! ### RUN -/

theorem exec_run {s : State} {h : AskHead} (t : Takes s h 3) : exec (.run h) s = finish (s.doRun h.tag) := afterReads_takeAsk t _

/-- RUN in RUN changes nothing. -/
theorem run_running {s : State} {h : AskHead} (t : Takes s h 3) (running : s.runState = .run) :
    exec (.run h) s = .next (s.cancelAutoRun.answered h 3 .done none (.words [1])) := by
  have inRun : s.running = true := by simp [State.running, running]
  have code : runStateCode s.runState = 1 := congrArg runStateCode running
  rw [exec_run t, State.doRun, if_pos inRun, ← code]
  exact finish_replyRunState s.cancelAutoRun h 3 .done none [] (quiet_of_takes t) (room_of_takes t)

theorem running_out {s : State} (out : s.runState ≠ .run) : ¬ s.running = true := by simpa [State.running] using out

/-- A refused RUN is answered with its reason, the reason's data and the run state. -/
theorem run_refused {s : State} {h : AskHead} {r : Reason} {ws : List Nat} (t : Takes s h 3) (out : s.runState ≠ .run)
    (refusal : s.runRefusal = some (r, ws)) :
    exec (.run h) s = .next (s.cancelAutoRun.answered h 3 .refused (some r) (.words (ws ++ [runStateCode s.runState]))) := by
  rw [exec_run t, State.doRun, if_neg (running_out out), refusal]
  exact finish_replyRunState s.cancelAutoRun h 3 .refused (some r) ws (quiet_of_takes t) (room_of_takes t)

theorem runRefusal_noHolder {s : State} (empty : s.holders = []) : s.runRefusal = some (.missingTable, [1]) :=
  if_pos (List.isEmpty_iff.2 empty)

theorem runRefusal_noDistrict {s : State} (holders : s.holders ≠ []) (empty : s.districts = []) :
    s.runRefusal = some (.missingTable, [2]) :=
  (if_neg (mt List.isEmpty_iff.1 holders)).trans (if_pos (List.isEmpty_iff.2 empty))

theorem runRefusal_noYard {s : State} (holders : s.holders ≠ []) (districts : s.districts ≠ [])
    (missing : s.yardPresent = false ∨ s.yardDamaged = true) : s.runRefusal = some (.missingTable, [3]) := by
  have yard : (!s.yardPresent || s.yardDamaged) = true := by simpa using missing
  rw [State.runRefusal, if_neg (mt List.isEmpty_iff.1 holders), if_neg (mt List.isEmpty_iff.1 districts), if_pos yard]

/-- The tables that RUN examines are all there (10 R199). -/
structure TablesPresent (s : State) : Prop where
  holders : s.holders ≠ []
  districts : s.districts ≠ []
  yardPresent : s.yardPresent = true
  yardWhole : s.yardDamaged = false

theorem TablesPresent.yard {s : State} (p : TablesPresent s) : ¬ (!s.yardPresent || s.yardDamaged) = true := by
  simp [p.yardPresent, p.yardWhole]

theorem runRefusal_unpolled {s : State} {st : Nat} {rest : List Nat} (p : TablesPresent s) (named : s.unpolled = st :: rest) :
    s.runRefusal = some (.unpolled, [st, rest.length + 1]) := by
  rw [State.runRefusal, if_neg (mt List.isEmpty_iff.1 p.holders), if_neg (mt List.isEmpty_iff.1 p.districts), if_neg p.yard, named]

theorem runRefusal_none {s : State} (p : TablesPresent s) (polled : s.unpolled = []) : s.runRefusal = none := by
  rw [State.runRefusal, if_neg (mt List.isEmpty_iff.1 p.holders), if_neg (mt List.isEmpty_iff.1 p.districts), if_neg p.yard, polled]

/-- Plain hand-offs and then the answer that gives the run state: the run state it gives is the one in force at the request. -/
theorem finish_lastRunState {s : State} (hs : List Handoff) (h : AskHead) (c : Nat) (r : Result) (w : Option Reason) (ws : List Nat)
    (e : s.handoffs = hs ++ [.replyRunState h.tag c r w ws]) (p : Plain hs) :
    ∃ t, finish s = .next t ∧ Answered s t h c r w (.words (ws ++ [runStateCode s.runState])) := by
  obtain ⟨calm, last⟩ := settle_last Config.handoffBound s hs _ e p (fun _ => rfl) (fun t => State.giveAnswer_calm t _ _ _ _ _)
  refine ⟨_, rfl, calm, fun quiet => ?_⟩
  obtain ⟨t, same, _, made⟩ := last quiet
  have runState : t.runState = s.runState := congrArg Calm.runState same
  rw [made, ← runState]
  simp [act, State.giveAnswer]

/-- RUN that passes its examination is plain work of the units, and then the answer. -/
theorem run_enters {s : State} {h : AskHead} (t : Takes s h 3) (out : s.runState ≠ .run) (passes : s.runRefusal = none) :
    ∃ u, exec (.run h) s = .next u
      ∧ Answered ({ s.cancelAutoRun with runState := .run } : State) u h 3 .done none (.words [1]) := by
  rw [exec_run t, State.doRun, if_neg (running_out out), passes]
  obtain ⟨u, e, calm, answers⟩ := finish_lastRunState (s := s.cancelAutoRun.enterRun.hand [.replyRunState h.tag 3 .done none []])
    s.cancelAutoRun.enterRun.handoffs h 3 .done none [] rfl (enterRun_plain (quiet_of_takes t))
  exact ⟨u, e, calm, answers⟩

/-- Settles O30: the examination of RUN in its order, and the entry where it finds nothing. -/
theorem runIsCheckedAndEntered : Obligations.RunIsCheckedAndEntered := by
  refine fun s h t => ⟨run_running t, fun out empty => run_refused t out (runRefusal_noHolder empty),
    fun out holders empty => run_refused t out (runRefusal_noDistrict holders empty),
    fun out holders districts missing => run_refused t out (runRefusal_noYard holders districts missing),
    fun st rest out holders districts present whole named =>
      run_refused t out (runRefusal_unpolled ⟨holders, districts, present, whole⟩ named),
    fun out holders districts present whole polled => ?_⟩
  obtain ⟨u, e, calm, answers⟩ := run_enters t out (runRefusal_none ⟨holders, districts, present, whole⟩ polled)
  have run : u.runState = .run := congrArg Calm.runState calm
  have records := SameRecords.of_calm calm
  have samples := SameSamples.of_calm calm
  exact ⟨u, e, run, by rw [runLamp, run]; rfl, .of_calm calm, records, samples, answers⟩

/-! ### Outcomes of polls -/

theorem recordOutcome_none {s : State} {station : Nat} (o : PollOutcome) (absent : s.enabledPoll station = none) :
    s.recordOutcome station o = s := by
  rw [State.recordOutcome, absent]

/-- A failure outcome is recorded and leaves the time of the last good one. -/
theorem recordOutcome_failed {s : State} {station n : Nat} {p : PollPos} {o : PollOutcome} (held : s.enabledPoll station = some (n, p))
    (bad : ¬ (o = .good ∨ o = .unmasked)) :
    s.recordOutcome station o = s.setPoll n { p with lastOutcome := some (o, s.elapsed) } := by
  rw [State.recordOutcome, held]
  dsimp only
  rw [if_neg bad]

/-- A good outcome is recorded with the yard clock as the last good one. -/
theorem recordOutcome_good {s : State} {station n : Nat} {p : PollPos} {o : PollOutcome} (held : s.enabledPoll station = some (n, p))
    (good : o = .good ∨ o = .unmasked) : s.recordOutcome station o
      = s.setPoll n { p with lastOutcome := some (o, s.elapsed), lastGood := some (s.clock.day, s.clock.second) } := by
  rw [State.recordOutcome, held]
  dsimp only
  rw [if_pos good]

theorem replyOutcome_good (mask cond : Word) : replyOutcome mask cond = .good ∨ replyOutcome mask cond = .unmasked := by
  unfold replyOutcome
  split
  · exact .inl rfl
  · exact .inr rfl

/-- The outcome of a poll is no business of the directory. -/
theorem entry_recordOutcome (s : State) (station : Nat) (o : PollOutcome) (m : Nat) :
    (s.recordOutcome station o).entry m = s.entry m := by
  unfold State.recordOutcome
  split
  · rfl
  · rfl

theorem maskOf_held {s : State} {station n : Nat} {p : PollPos} (held : s.enabledPoll station = some (n, p)) :
    s.maskOf station = p.tab.mask := by
  rw [State.maskOf, held]

/-- A failure is charged where the station has an entry and an enabled poll, but to no search poll short of F3 (09 R183): the count
rises, and at the threshold a station not lost is lost. -/
theorem pollFailed_charged {s : State} {l : FLine} {station n : Nat} {e : DirEntry} {p : PollPos} {o : PollOutcome} {search : Bool}
    (failure : o = .noResponse ∨ o = .format) (own : ¬ (search = true ∧ l ≠ .f3)) (held : s.entry station = some e)
    (polled : s.enabledPoll station = some (n, p)) :
    let r := s.setPoll n { p with lastOutcome := some (o, s.elapsed) }
    let k := min 15 (e.failures + 1)
    s.pollFailed l station o search = if e.lost = false ∧ s.yardNow.lostThreshold ≤ k
      then ((r.setEntry station { e with failures := k, lost := true }).notify .stationLost (.station station)
        (.pair k (pollOutcomeCode o))).hand [.stationLost station]
      else r.setEntry station { e with failures := k } := by
  have charged : (o = .noResponse ∨ o = .format) ∧ (s.enabledPoll station).isSome = true ∧ ¬ (search = true ∧ l ≠ .f3) :=
    ⟨failure, by rw [polled]; rfl, own⟩
  have bad : ¬ (o = .good ∨ o = .unmasked) := by rcases failure with rfl | rfl <;> decide
  unfold State.pollFailed
  dsimp only
  rw [entry_recordOutcome, held, recordOutcome_failed polled bad]
  exact if_pos charged

/-- A reply of a station that has an entry clears the failure count of the entry, and a lost station is found (09 R184). -/
theorem pollGood_held {s : State} {station : Nat} {e : DirEntry} (cond : Word) (held : s.entry station = some e) :
    let r := s.recordOutcome station (replyOutcome (s.maskOf station) cond)
    s.pollGood station cond = if e.lost
      then (r.setEntry station { e with failures := 0, lost := false }).notify .stationFound (.station station) .absent
      else r.setEntry station { e with failures := 0, lost := false } := by
  unfold State.pollGood
  dsimp only
  rw [entry_recordOutcome, held]

/-- Settles O56: a charged failure below and at the threshold, and a reply without and with an enabled poll. -/
theorem stationIsLostAndFound : Obligations.StationIsLostAndFound := by
  refine ⟨fun s l station e n p held polled => ⟨fun stays => ?_, fun here reached => ?_⟩, fun s station e cond held absent => ?_,
    fun s station e cond n p held polled => ?_⟩
  · have notLost : ¬ (e.lost = false ∧ s.yardNow.lostThreshold ≤ min 15 (e.failures + 1)) := fun lost =>
      stays.elim (fun before => by simp [lost.1] at before) (Nat.not_lt.2 lost.2)
    exact (pollFailed_charged (.inl rfl) (by simp) held polled).trans (if_neg notLost)
  · exact (pollFailed_charged (.inl rfl) (by simp) held polled).trans (if_pos ⟨here, reached⟩)
  · have kept := pollGood_held cond held
    rwa [recordOutcome_none _ absent] at kept
  · have found := pollGood_held cond held
    rwa [recordOutcome_good polled (replyOutcome_good _ _), maskOf_held polled] at found

end Sys2Proof.PollProofs
end

section
/-! Proofs of the family of the run state, the yard clock and the desk requests: what every command keeps (10 R202, R203), the request and
entry codings (10 R192, R195), and the requests of the desk (10 R194-R206). -/

namespace Sys2Proof.RunStateProofs

open Sys2Proof Sys2Proof.Machine Sys2Proof.DistrictProofs Sys2Proof.AccountProofs Sys2Proof.DirectoryProofs Sys2Proof.PollProofs

/-! ### The marks of a state -/

/-- The marks of a state: what the clock's range, the tie of the yard flags and the queue of commands depend on. Most operations
of the units leave them all. -/
def marks (s : State) : List Instr × Clock × BitVec 8 × Nat × Bool := (s.pending, s.clock, s.flags, s.pool.level, s.fill.unplaced)

theorem foldl_marks {α : Type} {f : State → α → State} (hf : ∀ s x, marks (f s x) = marks s) (l : List α) (s : State) :
    marks (l.foldl f s) = marks s := by
  induction l generalizing s with
  | nil => rfl
  | cons x r ih => exact (ih _).trans (hf s x)

@[simp] theorem modFill_marks (s : State) (f : Fill → Fill) (keeps : (f s.fill).unplaced = s.fill.unplaced) :
    marks (s.modFill f) = marks s := by simp [marks, keeps]

@[simp] theorem modPool_marks (s : State) (f : Pool → Pool) (keeps : (f s.pool).level = s.pool.level) :
    marks (s.modPool f) = marks s := by simp [marks, keeps]

/-! ### The records of the state -/

@[simp] theorem setHolder_marks (s : State) (n : Nat) (h : Holder) : marks (s.setHolder n h) = marks s := rfl

@[simp] theorem setValve_marks (s : State) (n : Nat) (v : Valve) : marks (s.setValve n v) = marks s := rfl

@[simp] theorem setDistrict_marks (s : State) (n : Nat) (d : District) : marks (s.setDistrict n d) = marks s := rfl

@[simp] theorem setBooster_marks (s : State) (n : Nat) (b : Booster) : marks (s.setBooster n b) = marks s := rfl

@[simp] theorem setPoll_marks (s : State) (n : Nat) (p : PollPos) : marks (s.setPoll n p) = marks s := rfl

@[simp] theorem setEntry_marks (s : State) (station : Nat) (e : DirEntry) : marks (s.setEntry station e) = marks s := rfl

@[simp] theorem setMeter_marks (s : State) (n : Nat) (m : Meter) : marks (s.setMeter n m) = marks s := rfl

@[simp] theorem modHolder_marks (s : State) (n : Nat) (f : HolderRt → HolderRt) : marks (s.modHolder n f) = marks s := by
  unfold State.modHolder
  split <;> rfl

@[simp] theorem modDistrict_marks (s : State) (n : Nat) (f : DistrictRt → DistrictRt) : marks (s.modDistrict n f) = marks s := by
  unfold State.modDistrict
  split <;> rfl

@[simp] theorem modBooster_marks (s : State) (n : Nat) (f : Booster → Booster) : marks (s.modBooster n f) = marks s := by
  unfold State.modBooster
  split <;> rfl

@[simp] theorem setLine_marks (s : State) (l : FLine) (u : LineUnit) : marks (s.setLine l u) = marks s := by
  unfold State.setLine
  split <;> rfl

@[simp] theorem modLine_marks (s : State) (l : FLine) (f : LineUnit → LineUnit) : marks (s.modLine l f) = marks s := by
  unfold State.modLine
  simp

@[simp] theorem hand_marks (s : State) (hs : List Handoff) : marks (s.hand hs) = marks s := rfl

@[simp] theorem notify_marks (s : State) (k : NoticeKind) (sub : Subject) (det : Detail) : marks (s.notify k sub det) = marks s := rfl

/-! ### Answers, lines and the directory -/

@[simp] theorem answerRelayed_marks (s : State) (tag : Nat) (request : Nat) (res : Result) (reason : Option Reason) (station : Nat)
    (owed : Bool) : marks (s.answerRelayed tag request res reason station owed) = marks s := rfl

@[simp] theorem answerOrder_marks (s : State) (g : DeskRef) (res : Result) (why : Option Reason) (owed : Bool) :
    marks (s.answerOrder g res why owed) = marks s := rfl

@[simp] theorem answerEach_marks (s : State) (res : Result) (gs : List DeskRef) (owed : Bool) :
    marks (s.answerEach res gs owed) = marks s :=
  foldl_marks (by simp) _ _

@[simp] theorem setSlot_marks (s : State) (t : Target) (sl : Slot) : marks (s.setSlot t sl) = marks s := by
  unfold State.setSlot
  (repeat' split) <;> simp

@[simp] theorem place_marks (s : State) (l : FLine) (f : LineUnit → LineUnit) : marks (s.place l f) = marks s := by
  unfold State.place
  simp

@[simp] theorem withdrawOrder_marks (s : State) (t : Target) : marks (s.withdrawOrder t) = marks s := rfl

@[simp] theorem moveQueued_marks (s : State) (station : Nat) (old new : FLine) : marks (s.moveQueued station old new) = marks s := by
  unfold State.moveQueued
  split <;> simp

@[simp] theorem gatherPolls_marks (s : State) (station : Nat) (new : FLine) : marks (s.gatherPolls station new) = marks s := by
  refine foldl_marks (fun u l => ?_) _ _
  split
  · rfl
  · simp

@[simp] theorem failAttempt_marks (s : State) (l : FLine) (station : Nat) : marks (s.failAttempt l station) = marks s := by
  unfold State.failAttempt
  dsimp only
  (repeat' split) <;> simp

@[simp] theorem goodTelegram_marks (s : State) (l : FLine) : marks (s.goodTelegram l) = marks s := by
  unfold State.goodTelegram
  dsimp only
  (repeat' split) <;> simp

@[simp] theorem countStray_marks (s : State) (l : FLine) : marks (s.countStray l) = marks s := by
  unfold State.countStray
  simp

@[simp] theorem createEntry_marks (s : State) (station : Nat) (e : DirEntry) : marks (s.createEntry station e) = marks s := rfl

@[simp] theorem removeEntry_marks (s : State) (station : Nat) : marks (s.removeEntry station) = marks s := rfl

@[simp] theorem modEntry_marks (s : State) (station : Nat) (f : DirEntry → DirEntry) : marks (s.modEntry station f) = marks s := by
  unfold State.modEntry
  split <;> rfl

@[simp] theorem countDirFull_marks (s : State) : marks s.countDirFull = marks s := rfl

@[simp] theorem countRefusal_marks (s : State) (e : Result) : marks (s.countRefusal e) = marks s := by
  unfold State.countRefusal
  split <;> rfl

theorem makeRoom_marks {s t : State} (h : s.makeRoom = some t) : marks t = marks s := by
  unfold State.makeRoom at h
  split at h
  · cases h; rfl
  · split at h
    · cases h; simp
    · cases h

@[simp] theorem learn_marks (s : State) (inhibit : Bool) (l : FLine) (station : Nat) :
    marks (s.learn inhibit l station) = marks s := by
  unfold State.learn
  dsimp only
  repeat' split
  case h_1 t room => simp [makeRoom_marks room]
  all_goals simp

@[simp] theorem bindPresent_marks (s : State) (b : Binding × Nat) : marks (s.bindPresent b) = marks s := by
  unfold State.bindPresent
  simp

@[simp] theorem bindAbsent_marks (s : State) (b : Binding × Nat) : marks (s.bindAbsent b) = marks s := by
  unfold State.bindAbsent
  split
  · rfl
  · split
    · next t room => simp [makeRoom_marks room]
    · rfl

@[simp] theorem bindAll_marks (s : State) (bs : List (Binding × Nat)) : marks (s.bindAll bs) = marks s :=
  (foldl_marks bindAbsent_marks _ _).trans (foldl_marks bindPresent_marks _ _)

@[simp] theorem unbindEntry_marks (s : State) (station : Nat) : marks (s.unbindEntry station) = marks s := by
  unfold State.unbindEntry
  (repeat' split) <;> simp

@[simp] theorem unbind_marks (s : State) (b : Binding) : marks (s.unbind b) = marks s := by
  unfold State.unbind
  split <;> simp

@[simp] theorem rebind_marks (s : State) (olds : List Binding) (news : List (Binding × Nat)) : marks (s.rebind olds news) = marks s :=
  (foldl_marks unbindEntry_marks _ _).trans (bindAll_marks s _)

theorem writeDirectory_marks {s t : State} {r : DirWrite} (h : s.writeDirectory r = .ok t) : marks t = marks s := by
  unfold State.writeDirectory at h
  split at h
  · split at h
    · next t room =>
      cases h
      refine Eq.trans ?_ (makeRoom_marks room)
      split <;> simp
    · cases h
  · cases h
    split <;> simp

theorem setWatch_marks {s t : State} {station : Nat} {on : Bool} (h : s.setWatch station on = some t) : marks t = marks s := by
  unfold State.setWatch at h
  repeat' split at h
  all_goals cases h
  all_goals simp

/-! ### The poll sequencer -/

@[simp] theorem recordOutcome_marks (s : State) (station : Nat) (o : PollOutcome) : marks (s.recordOutcome station o) = marks s := by
  unfold State.recordOutcome
  split <;> rfl

@[simp] theorem pollFailed_marks (s : State) (l : FLine) (station : Nat) (o : PollOutcome) (search : Bool) :
    marks (s.pollFailed l station o search) = marks s := by
  unfold State.pollFailed
  dsimp only
  (repeat' split) <;> simp

@[simp] theorem pollGood_marks (s : State) (station : Nat) (cond : Word) : marks (s.pollGood station cond) = marks s := by
  unfold State.pollGood
  dsimp only
  (repeat' split) <;> simp

@[simp] theorem noticeConditions_marks (s : State) (station : Nat) (fresh : Word) :
    marks (s.noticeConditions station fresh) = marks s := by
  refine foldl_marks (fun u i => ?_) _ _
  split <;> simp

@[simp] theorem conditions_marks (s : State) (station : Nat) (cond : Word) : marks (s.conditions station cond) = marks s := by
  unfold State.conditions
  split <;> simp

@[simp] theorem heardConditions_marks (s : State) (station : Nat) (cond : Word) : marks (s.heardConditions station cond) = marks s := by
  unfold State.heardConditions
  split <;> simp

@[simp] theorem searchDone_marks (s : State) (q : PartPoll) : marks (s.searchDone q) = marks s := by
  unfold State.searchDone
  (repeat' split) <;> simp

@[simp] theorem setFlood_marks (s : State) (f : Flood) : marks (s.setFlood f) = marks s := rfl

@[simp] theorem floodReply_marks (s : State) (f : Flood) (l : FLine) : marks (s.floodReply f l) = marks s :=
  (setFlood_marks _ _).trans (foldl_marks (by simp) _ _)

@[simp] theorem forgetChecks_marks (s : State) (station : Nat) : marks (s.forgetChecks station) = marks s := rfl

@[simp] theorem askCheck_marks (s0 : State) (v : Nat) : marks (s0.askCheck v) = marks s0 := by
  unfold State.askCheck
  dsimp only
  (repeat' split) <;> simp

@[simp] theorem clearCycles_marks (s : State) : marks s.clearCycles.1 = marks s := by
  unfold State.clearCycles allLines
  simp

@[simp] theorem offerCycle_marks (s : State) (n : Nat) : marks (s.offerCycle n) = marks s := by
  unfold State.offerCycle
  dsimp only
  (repeat' split) <;> simp

@[simp] theorem cycleSteps_marks (s : State) : marks s.cycleSteps = marks s := by
  refine (foldl_marks offerCycle_marks _ _).trans ?_
  have cleared := clearCycles_marks s
  split
  · exact cleared
  · exact cleared

/-! ### Orders and their slots -/

@[simp] theorem setValveState_marks (s : State) (v : Nat) (st : VState) : marks (s.setValveState v st) = marks s := by
  unfold State.setValveState
  split <;> rfl

@[simp] theorem setLocal_marks (s : State) (v : Nat) (b : Bool) : marks (s.setLocal v b) = marks s := by
  unfold State.setLocal
  split <;> rfl

@[simp] theorem answerParked_marks (s : State) (h : Nat) (r : Result) (owed : Bool) : marks (s.answerParked h r owed) = marks s := by
  unfold State.answerParked
  (repeat' split) <;> simp

@[simp] theorem supersedeParked_marks (s : State) (v : Nat) (owed : Bool) : marks (s.supersedeParked v owed) = marks s :=
  answerEach_marks _ _ _ _

@[simp] theorem takeFree_marks (s : State) (t : Target) (code : OrderCode) (arg : Nat) (origin : Origin) (tag : Option DeskRef) :
    marks (s.takeFree t code arg origin tag).1 = marks s := by
  unfold State.takeFree
  split <;> simp

@[simp] theorem freeSlot_marks (s : State) (t : Target) (sl : Slot) : marks (s.freeSlot t sl).1 = marks s := by
  unfold State.freeSlot
  split <;> simp

@[simp] theorem markShutting_marks (s : State) (t : Target) : marks (s.markShutting t).1 = marks s := by
  cases t with
  | valve v => exact setValveState_marks s v .shutting
  | governor d => rfl
  | booster b => rfl

@[simp] theorem reverse_marks (s : State) (t : Target) (sl : Slot) (code : OrderCode) (origin : Origin) (tag : Option DeskRef) :
    marks (s.reverse t sl code origin tag) = marks s := by
  unfold State.reverse
  dsimp only
  split <;> simp

@[simp] theorem claimShut_marks (s : State) (t : Target) (sl : Slot) (code : OrderCode) (origin : Origin) (tag : Option DeskRef) :
    marks (s.claimShut t sl code origin tag) = marks s := by
  unfold State.claimShut
  (repeat' split) <;> simp

@[simp] theorem claimSlot_marks (s : State) (t : Target) (code : OrderCode) (arg : Nat) (origin : Origin) (tag : Option DeskRef) (owed : Bool) :
    marks (s.claimSlot t code arg origin tag owed) = marks s := by
  unfold State.claimSlot
  (repeat' split) <;> simp

@[simp] theorem claim_marks (s : State) (t : Target) (code : OrderCode) (arg : Nat) (origin : Origin) (tag : Option DeskRef) (owed : Bool) :
    marks (s.claim t code arg origin tag owed) = marks s := by
  unfold State.claim
  split <;> simp

@[simp] theorem endValveOrder_marks (s : State) (v : Nat) (sl : Slot) (st : Option VState) (o : SlotOutcome) (byReport : Bool)
    (cause : List Handoff := []) : marks (s.endValveOrder v sl st o byReport cause) = marks s := by
  unfold State.endValveOrder
  split <;> simp

@[simp] theorem startTravel_marks (s : State) (v : Nat) (sl : Slot) (st : VState) : marks (s.startTravel v sl st) = marks s := by
  unfold State.startTravel
  split <;> rfl

@[simp] theorem valveOrderEnded_marks (s : State) (v : Nat) (sl : Slot) (e : OrderEnd) : marks (s.valveOrderEnded v sl e) = marks s := by
  unfold State.valveOrderEnded
  (repeat' split) <;> simp

@[simp] theorem governorOrderEnded_marks (s : State) (d : Nat) (sl : Slot) (e : OrderEnd) : marks (s.governorOrderEnded d sl e) = marks s := by
  unfold State.governorOrderEnded
  split <;> simp

@[simp] theorem endBoosterOrder_marks (s : State) (b : Nat) (sl : Slot) (o : SlotOutcome) : marks (s.endBoosterOrder b sl o) = marks s := by
  unfold State.endBoosterOrder
  simp

@[simp] theorem failBoosterOrder_marks (s : State) (b : Nat) (sl : Slot) (o : SlotOutcome) : marks (s.failBoosterOrder b sl o) = marks s := by
  unfold State.failBoosterOrder
  simp

@[simp] theorem boosterOrderEnded_marks (s : State) (b : Nat) (sl : Slot) (e : OrderEnd) : marks (s.boosterOrderEnded b sl e) = marks s := by
  unfold State.boosterOrderEnded
  (repeat' split) <;> simp

@[simp] theorem orderEnded_marks (s : State) (t : Target) (e : OrderEnd) : marks (s.orderEnded t e) = marks s := by
  unfold State.orderEnded
  (repeat' split) <;> simp

@[simp] theorem travelReport_marks (s : State) (v : Nat) (sl : Slot) (p : Position) : marks (s.travelReport v sl p) = marks s := by
  unfold State.travelReport
  (repeat' split) <;> simp

@[simp] theorem valvePosition_marks (s : State) (v : Nat) (p : Position) : marks (s.valvePosition v p) = marks s := by
  unfold State.valvePosition
  dsimp only
  (repeat' split) <;> simp

@[simp] theorem valveReport_marks (s : State) (v : Nat) (body : List Word) : marks (s.valveReport v body) = marks s := by
  unfold State.valveReport
  split <;> simp

@[simp] theorem valveAckWord_marks (s : State) (v : Nat) (body : List Word) : marks (s.valveAckWord v body) = marks s := by
  unfold State.valveAckWord
  simp

@[simp] theorem judgeValve_marks (s : State) (v : Nat) (sl : Slot) (stuck : Bool) : marks (s.judgeValve v sl stuck) = marks s := by
  unfold State.judgeValve
  simp

@[simp] theorem judgeCheck_marks (s : State) (v : Nat) (r : CheckResult) : marks (s.judgeCheck v r) = marks s := by
  unfold State.judgeCheck
  (repeat' split) <;> simp

@[simp] theorem allowanceExpired_marks (s : State) (v : Nat) (sl : Slot) : marks (s.allowanceExpired v sl) = marks s := by
  unfold State.allowanceExpired
  split <;> simp

@[simp] theorem topGuard_marks (s : State) (h : Nat) : marks (s.topGuard h) = marks s := by
  unfold State.topGuard
  dsimp only
  (repeat' split) <;> simp

@[simp] theorem refuseOrder_marks (s : State) (tag : DeskRef) (r : Reason) (owed : Bool) : marks (s.refuseOrder tag r owed) = marks s := rfl

@[simp] theorem parkOrClaim_marks (s : State) (v : Nat) (code : OrderCode) (tag : DeskRef) : marks (s.parkOrClaim v code tag) = marks s := by
  unfold State.parkOrClaim
  (repeat' split) <;> simp

@[simp] theorem shutBars_marks (s : State) (v : Nat) : marks (s.shutBars v).1 = marks s := by
  unfold State.shutBars
  (repeat' split) <;> simp

@[simp] theorem deskValveOrder_marks (s : State) (v : Nat) (code : OrderCode) (tag : DeskRef) :
    marks (s.deskValveOrder v code tag) = marks s := by
  unfold State.deskValveOrder
  (repeat' split) <;> simp

@[simp] theorem regate_marks (s : State) (h : Nat) (owed : Bool) : marks (s.regate h owed) = marks s := by
  unfold State.regate
  dsimp only
  (repeat' split) <;> simp

@[simp] theorem deskGovernorOrder_marks (s : State) (d : Nat) (code : OrderCode) (tag : DeskRef) :
    marks (s.deskGovernorOrder d code tag) = marks s := by
  unfold State.deskGovernorOrder
  (repeat' split) <;> simp

@[simp] theorem supersedeSlot_marks (s : State) (t : Target) : marks (s.supersedeSlot t) = marks s := by
  unfold State.supersedeSlot
  (repeat' split) <;> simp

@[simp] theorem restartOrders_marks (s : State) : marks s.restartOrders = marks s := rfl

/-! ### The holders -/

@[simp] theorem claimSafety_marks (s : State) (h : Nat) (x : Holder) (v : Nat) (o : Origin) : marks (s.claimSafety h x v o) = marks s := by
  unfold State.claimSafety
  split <;> simp

@[simp] theorem entryShuts_marks (s : State) (h : Nat) (x : Holder) (st : HState) : marks (s.entryShuts h x st) = marks s := by
  unfold State.entryShuts
  (repeat' split) <;> simp

@[simp] theorem enterState_marks (s : State) (h : Nat) (x : Holder) (st : HState) : marks (s.enterState h x st) = marks s := by
  unfold State.enterState
  simp

@[simp] theorem rederiveFrom_marks (s : State) (h : Nat) (before : HolderRt) : marks (s.rederiveFrom h before) = marks s := by
  unfold State.rederiveFrom
  dsimp only
  (repeat' split) <;> simp

@[simp] theorem rederive_marks (s : State) (h : Nat) : marks (s.rederive h) = marks s := by
  unfold State.rederive
  split <;> simp

@[simp] theorem addCause_marks (s : State) (h : Nat) (c : Cause) : marks (s.addCause h c) = marks s := by
  unfold State.addCause
  (repeat' split) <;> simp

@[simp] theorem fastRise_marks (s : State) (h : Nat) (r : HolderRec) (rate : Int) : marks (s.fastRise h r rate) = marks s := by
  unfold State.fastRise
  (repeat' split) <;> simp

@[simp] theorem usableSample_marks (s : State) (h : Nat) (x : Holder) (mm : Nat) : marks (s.usableSample h x mm) = marks s := by
  unfold State.usableSample
  dsimp only
  (repeat' split) <;> simp

@[simp] theorem gaugeReport_marks (s : State) (h : Nat) (body : List Word) : marks (s.gaugeReport h body) = marks s := by
  unfold State.gaugeReport
  (repeat' split) <;> simp

@[simp] theorem gaugeLost_marks (s : State) (h : Nat) : marks (s.gaugeLost h) = marks s := by
  unfold State.gaugeLost
  split <;> simp

@[simp] theorem windowOne_marks (s : State) (p : Nat × Holder) : marks (s.windowOne p) = marks s := by
  unfold State.windowOne
  dsimp only
  (repeat' split) <;> simp

@[simp] theorem valveCleared_marks (s : State) (v : Nat) : marks (s.valveCleared v) = marks s := rfl

@[simp] theorem holderValve_marks (s : State) (v : Nat) (byReport changed : Bool) : marks (s.holderValve v byReport changed) = marks s := by
  unfold State.holderValve
  dsimp only
  (repeat' split) <;> simp

@[simp] theorem safetyExamineOne_marks (s : State) (h : Nat) : marks (s.safetyExamineOne h) = marks s := by
  unfold State.safetyExamineOne
  (repeat' split) <;> simp

@[simp] theorem safetyExamine_marks (s : State) : marks s.safetyExamine = marks s := by
  unfold State.safetyExamine
  split <;> rfl

@[simp] theorem graceExpired_marks (s : State) (h : Nat) (x : Holder) : marks (s.graceExpired h x) = marks s := rfl

@[simp] theorem takeHolder_marks (s : State) (n : Nat) (r : HolderRec) : marks (s.takeHolder n r) = marks s := by
  unfold State.takeHolder
  dsimp only
  (repeat' split) <;> simp

@[simp] theorem dropHolder_marks (s : State) (n : Nat) : marks (s.dropHolder n) = marks s := by
  refine (unbind_marks _ _).trans ?_
  exact answerParked_marks s n .superseded true

/-! ### The fill side -/

@[simp] theorem beginFill_marks (s : State) (new : Nat) : marks (s.beginFill new) = marks s := rfl

@[simp] theorem endFill_marks (s : State) : marks s.endFill = marks s := by
  unfold State.endFill
  dsimp only
  (repeat' split) <;> simp

@[simp] theorem fillNewOpen_marks (s : State) (c : FillChange) : marks (s.fillNewOpen c) = marks s := by
  unfold State.fillNewOpen
  (repeat' split) <;> simp

@[simp] theorem fillTest_marks (s : State) : marks s.fillTest = marks s := by
  unfold State.fillTest
  (repeat' split) <;> simp

@[simp] theorem abandonFill_marks (s : State) (c : FillChange) : marks (s.abandonFill c) = marks s := rfl

@[simp] theorem newHolderCheck_marks (s : State) (h : Nat) : marks (s.newHolderCheck h) = marks s := by
  unfold State.newHolderCheck
  (repeat' split) <;> simp

@[simp] theorem fillUnable_marks (s : State) (h : Nat) (own : Bool) : marks (s.fillUnable h own) = marks s := by
  unfold State.fillUnable
  (repeat' split) <;> simp

@[simp] theorem fillTold_marks (s : State) (h : Nat) : marks (s.fillTold h) = marks s := by
  unfold State.fillTold
  split <;> simp

@[simp] theorem fillBarTold_marks (s : State) (h : Nat) (set : Bool) : marks (s.fillBarTold h set) = marks s := by
  unfold State.fillBarTold
  split <;> simp

@[simp] theorem fillInlet_marks (s : State) (h : Nat) : marks (s.fillInlet h) = marks s := by
  unfold State.fillInlet
  dsimp only
  (repeat' split) <;> simp

@[simp] theorem fillValve_marks (s : State) (v : Nat) : marks (s.fillValve v) = marks s := by
  unfold State.fillValve
  split <;> simp

@[simp] theorem fillStray_marks (s : State) (h : Nat) : marks (s.fillStray h) = marks s := by
  unfold State.fillStray
  (repeat' split) <;> simp

@[simp] theorem fillStrays_marks (s : State) : marks s.fillStrays = marks s := by
  unfold State.fillStrays
  split <;> rfl

@[simp] theorem fillCycle_marks (s : State) : marks s.fillCycle = marks s := rfl

@[simp] theorem fillRun_marks (s : State) : marks s.fillRun = marks s := by
  unfold State.fillRun
  (repeat' split) <;> simp

@[simp] theorem turnBoundary_marks (s : State) (due : Nat) : marks (s.turnBoundary due) = marks s := by
  unfold State.turnBoundary
  dsimp only
  repeat' split
  all_goals rfl

/-! ### The draw side -/

@[simp] theorem modDraw_marks (s : State) (f : Draw → Draw) : marks (s.modDraw f) = marks s := rfl

@[simp] theorem drawEvaluate_marks (s : State) : marks s.drawEvaluate = marks s := by
  unfold State.drawEvaluate
  dsimp only
  (repeat' split) <;> simp

@[simp] theorem drawCall_marks (s : State) : marks s.drawCall = marks s := by
  unfold State.drawCall
  (repeat' split) <;> simp

@[simp] theorem endDraw_marks (s : State) (c : DrawChange) : marks (s.endDraw c) = marks s := by
  unfold State.endDraw
  dsimp only
  (repeat' split) <;> simp

@[simp] theorem drawOpen_marks (s : State) (h : Nat) : marks (s.drawOpen h) = marks s := by
  unfold State.drawOpen
  (repeat' split) <;> simp

@[simp] theorem drawShut_marks (s : State) (h : Nat) : marks (s.drawShut h) = marks s := by
  unfold State.drawShut
  (repeat' split) <;> simp

@[simp] theorem drawClose_marks (s : State) (c : DrawChange) : marks (s.drawClose c) = marks s := by
  unfold State.drawClose
  dsimp only
  (repeat' split) <;> simp

@[simp] theorem drawStep_marks (s : State) : marks s.drawStep = marks s := by
  unfold State.drawStep
  (repeat' split) <;> simp

@[simp] theorem drawFinish_marks (s : State) : marks s.drawFinish = marks s := by
  unfold State.drawFinish
  (repeat' split) <;> simp

@[simp] theorem drawOutcome_marks (s : State) (v : Nat) (code : OrderCode) (origin : Origin) (o : SlotOutcome) :
    marks (s.drawOutcome v code origin o) = marks s := by
  unfold State.drawOutcome
  dsimp only
  (repeat' split) <;> simp

@[simp] theorem drawTold_marks (s : State) : marks s.drawTold = marks s := rfl

@[simp] theorem drawOutlet_marks (s : State) (v : Nat) : marks (s.drawOutlet v) = marks s := by
  unfold State.drawOutlet
  (repeat' split) <;> simp

@[simp] theorem drawCycle_marks (s : State) : marks s.drawCycle = marks s := rfl

@[simp] theorem drawManual_marks (s : State) : marks s.drawManual = marks s := rfl

@[simp] theorem drawAuto_marks (s : State) : marks s.drawAuto = marks s := rfl

@[simp] theorem noDrawCheck_marks (s : State) : marks s.noDrawCheck = marks s := by
  unfold State.noDrawCheck
  (repeat' split) <;> simp

@[simp] theorem mainPressure_marks (s : State) : marks s.mainPressure = marks s := by
  unfold State.mainPressure
  dsimp only
  (repeat' split) <;> simp

@[simp] theorem restartDraw_marks (s : State) : marks s.restartDraw = marks s := rfl

/-! ### The districts -/

@[simp] theorem retarget_marks (s : State) (d : Nat) : marks (s.retarget d) = marks s := by
  unfold State.retarget
  dsimp only
  (repeat' split) <;> simp

@[simp] theorem retargetAll_marks (s : State) : marks s.retargetAll = marks s := rfl

@[simp] theorem markRecorderLost_marks (s : State) (d : Nat) : marks (s.markRecorderLost d) = marks s := by
  unfold State.markRecorderLost
  split <;> rfl

@[simp] theorem districtEnter_marks (s : State) (d : Nat) (st : DState) : marks (s.districtEnter d st) = marks s := by
  unfold State.districtEnter
  dsimp only
  (repeat' split) <;> simp

@[simp] theorem districtAfresh_marks (s : State) (d : Nat) : marks (s.districtAfresh d) = marks s := by
  unfold State.districtAfresh
  split <;> simp

@[simp] theorem districtDerive_marks (s : State) (d : Nat) : marks (s.districtDerive d) = marks s := by
  unfold State.districtDerive
  (repeat' split) <;> simp

@[simp] theorem headShortChange_marks (s : State) (d : Nat) (x : District) (target : Nat) (head : Int) (short : Bool) :
    marks (s.headShortChange d x target head short) = marks s := by
  unfold State.headShortChange
  (repeat' split) <;> simp

@[simp] theorem headEval_marks (s : State) (d : Nat) : marks (s.headEval d) = marks s := by
  unfold State.headEval
  dsimp only
  (repeat' split) <;> simp

@[simp] theorem headAll_marks (s : State) : marks s.headAll = marks s := rfl

@[simp] theorem tellBoost_marks (s : State) (d held : Nat) (running : Bool) (lift : Nat) :
    marks (s.tellBoost d held running lift) = marks s := by
  unfold State.tellBoost
  simp

@[simp] theorem recorderReport_marks (s : State) (d : Nat) (body : List Word) : marks (s.recorderReport d body) = marks s := by
  unfold State.recorderReport
  (repeat' split) <;> simp

@[simp] theorem governorReport_marks (s : State) (d : Nat) (body : List Word) : marks (s.governorReport d body) = marks s := by
  unfold State.governorReport
  simp

@[simp] theorem atLimit_marks (s : State) (d : Nat) (x : District) (l : Limit) : marks (s.atLimit d x l) = marks s := by
  unfold State.atLimit
  split <;> rfl

@[simp] theorem governorLoop_marks (s : State) (d p : Nat) : marks (s.governorLoop d p) = marks s := by
  unfold State.governorLoop
  (repeat' split) <;> simp

@[simp] theorem governorOutcome_marks (s : State) (d : Nat) (o : SlotOutcome) : marks (s.governorOutcome d o) = marks s := by
  unfold State.governorOutcome
  (repeat' split) <;> simp

@[simp] theorem minuteNow_marks (s : State) : marks s.minuteNow = marks s := rfl

/-! ### The boosters -/

@[simp] theorem joinQueue_marks (s : State) (d : Nat) : marks (s.joinQueue d) = marks s := by
  unfold State.joinQueue
  split <;> rfl

@[simp] theorem leaveQueue_marks (s : State) (d : Nat) : marks (s.leaveQueue d) = marks s := rfl

@[simp] theorem queueSweep_marks (s : State) : marks s.queueSweep = marks s := by
  unfold State.queueSweep
  split <;> rfl

@[simp] theorem boostCheck_marks (s : State) (d : Nat) : marks (s.boostCheck d) = marks s := by
  unfold State.boostCheck
  (repeat' split) <;> simp

@[simp] theorem grant_marks (s : State) : marks s.grant = marks s := by
  unfold State.grant
  (repeat' split) <;> simp

@[simp] theorem boosterRuns_marks (s : State) (b : Nat) : marks (s.boosterRuns b) = marks s := by
  unfold State.boosterRuns
  (repeat' split) <;> simp

@[simp] theorem releaseDistrict_marks (s : State) (d : Nat) : marks (s.releaseDistrict d) = marks s := by
  unfold State.releaseDistrict
  dsimp only
  (repeat' split) <;> simp

@[simp] theorem releaseHeld_marks (s : State) (d : Option Nat) : marks (s.releaseHeld d) = marks s := by
  cases d with
  | none => rfl
  | some d => exact releaseDistrict_marks s d

@[simp] theorem boosterFails_marks (s : State) (b : Nat) (c : FailCause) : marks (s.boosterFails b c) = marks s := by
  unfold State.boosterFails
  (repeat' split) <;> simp

@[simp] theorem boosterFreed_marks (s : State) (b : Nat) : marks (s.boosterFreed b) = marks s := by
  unfold State.boosterFreed
  (repeat' split) <;> simp

@[simp] theorem boosterStopping_marks (s : State) (b : Nat) (x : Booster) : marks (s.boosterStopping b x) = marks s := by
  unfold State.boosterStopping
  simp

@[simp] theorem boosterStop_marks (s : State) (b : Nat) (c : StopCause) : marks (s.boosterStop b c) = marks s := by
  unfold State.boosterStop
  (repeat' split) <;> simp

@[simp] theorem districtWentOut_marks (s : State) (d : Nat) : marks (s.districtWentOut d) = marks s := by
  unfold State.districtWentOut
  dsimp only
  (repeat' split) <;> simp

@[simp] theorem boosterOutcome_marks (s : State) (b : Nat) (code : OrderCode) (o : SlotOutcome) :
    marks (s.boosterOutcome b code o) = marks s := by
  unfold State.boosterOutcome
  dsimp only
  (repeat' split) <;> simp

@[simp] theorem reportActs_marks (s : State) (b : Nat) (x : Booster) (running : Bool) : marks (s.reportActs b x running) = marks s := by
  unfold State.reportActs
  split <;> simp

@[simp] theorem reportDecides_marks (s : State) (b : Nat) (x : Booster) (running : Bool) : marks (s.reportDecides b x running) = marks s := by
  unfold State.reportDecides
  split <;> simp

@[simp] theorem reportFrees_marks (s : State) (b : Nat) (running : Bool) : marks (s.reportFrees b running) = marks s := by
  unfold State.reportFrees
  (repeat' split) <;> simp

@[simp] theorem boosterReport_marks (s : State) (b : Nat) (body : List Word) : marks (s.boosterReport b body) = marks s := by
  unfold State.boosterReport
  (repeat' split) <;> simp

@[simp] theorem releaseCheck_marks (s : State) (d : Nat) : marks (s.releaseCheck d) = marks s := by
  unfold State.releaseCheck
  split <;> simp

@[simp] theorem poolManual_marks (s : State) : marks s.poolManual = marks s := rfl

@[simp] theorem poolAuto_marks (s : State) : marks s.poolAuto = marks s := rfl

@[simp] theorem stopsDue_marks (s : State) : marks s.stopsDue = marks s := rfl

@[simp] theorem boosterDue_marks (s : State) (b : Nat) : marks (s.boosterDue b) = marks s := by
  unfold State.boosterDue
  (repeat' split) <;> simp

@[simp] theorem deskBoosterOrder_marks (s : State) (b : Nat) (code : OrderCode) (arg : Nat) (tag : DeskRef) :
    marks (s.deskBoosterOrder b code arg tag) = marks s := by
  unfold State.deskBoosterOrder
  (repeat' split) <;> simp

@[simp] theorem shedEval_marks (s : State) (d : Nat) : marks (s.shedEval d) = marks s := by
  unfold State.shedEval
  dsimp only
  (repeat' split) <;> simp

@[simp] theorem shedAll_marks (s : State) : marks s.shedAll = marks s := rfl

/-! ### The account -/

@[simp] theorem modAcct_marks (s : State) (f : Account → Account) : marks (s.modAcct f) = marks s := rfl

@[simp] theorem modPart_marks (s : State) (n : Nat) (f : Part → Part) : marks (s.modPart n f) = marks s := rfl

@[simp] theorem setMeterStation_marks (s : State) (n : Nat) (st : Option Nat) : marks (s.setMeterStation n st) = marks s := by
  unfold State.setMeterStation
  dsimp only
  (repeat' split) <;> simp

@[simp] theorem creditDelta_marks (s : State) (n : Nat) (m : Meter) (total delta : Nat) (restarted : Bool) :
    marks (s.creditDelta n m total delta restarted) = marks s := rfl

@[simp] theorem rejectDelta_marks (s : State) (n : Nat) (m : Meter) (total delta : Nat) : marks (s.rejectDelta n m total delta) = marks s := rfl

@[simp] theorem meterTotal_marks (s : State) (n total : Nat) (restarted : Bool) : marks (s.meterTotal n total restarted) = marks s := by
  unfold State.meterTotal
  dsimp only
  (repeat' split) <;> simp

@[simp] theorem meterReport_marks (s : State) (n : Nat) (body : List Word) : marks (s.meterReport n body) = marks s := by
  unfold State.meterReport
  dsimp only
  (repeat' split) <;> simp

@[simp] theorem meterLost_marks (s : State) (n : Nat) : marks (s.meterLost n) = marks s := rfl

@[simp] theorem meterFound_marks (s : State) (n : Nat) : marks (s.meterFound n) = marks s := rfl

@[simp] theorem markHolderBlind_marks (s : State) (h : Nat) : marks (s.markHolderBlind h) = marks s := by
  unfold State.markHolderBlind
  (repeat' split) <;> simp

@[simp] theorem acctClockSet_marks (s : State) : marks s.acctClockSet = marks s := rfl

@[simp] theorem balance_marks (s : State) (d : Option Int) : marks (s.balance d) = marks s := by
  unfold State.balance
  (repeat' split) <;> simp

@[simp] theorem append_marks (s : State) (r : AccountRecord) : marks (s.append r) = marks s := by
  unfold State.append
  dsimp only
  split <;> rfl

@[simp] theorem closeAccount_marks (s : State) : marks s.closeAccount = marks s := by
  unfold State.closeAccount
  refine (append_marks _ _).trans ((balance_marks _ _).trans ?_)
  split <;> rfl

@[simp] theorem mergeAccount_marks (s : State) : marks s.mergeAccount = marks s := by
  unfold State.mergeAccount
  split <;> rfl

@[simp] theorem accountDue_marks (s : State) : marks s.accountDue = marks s := by
  unfold State.accountDue
  split <;> simp

/-! ### The relay of telegrams -/

@[simp] theorem owner_marks (s : State) (t : Telegram) : marks (s.owner t) = marks s := by
  unfold State.owner
  split <;> simp

@[simp] theorem ownerLost_marks (s : State) (station : Nat) : marks (s.ownerLost station) = marks s := by
  unfold State.ownerLost
  split <;> simp

@[simp] theorem relayOut_marks (s : State) (c : RelayClass) (l : FLine) (t : Telegram) : marks (s.relayOut c l t) = marks s := rfl

@[simp] theorem watchOut_marks (s : State) (l : FLine) (o : Outgoing) (t : Telegram) : marks (s.watchOut l o t) = marks s := by
  unfold State.watchOut
  dsimp only
  (repeat' split) <;> simp

@[simp] theorem lessAllowance_marks (s : State) : marks s.lessAllowance = marks s := rfl

@[simp] theorem pollReply_marks (s : State) (station : Nat) (cond : Word) : marks (s.pollReply station cond) = marks s := by
  unfold State.pollReply
  dsimp only
  (repeat' split) <;> simp

@[simp] theorem copyReply_marks (s : State) (l : FLine) (c : DeskCopy) (cond : Word) : marks (s.copyReply l c cond) = marks s := by
  unfold State.copyReply
  (repeat' split) <;> simp

@[simp] theorem copyFailed_marks (s : State) (l : FLine) (c : DeskCopy) (o : PollOutcome) : marks (s.copyFailed l c o) = marks s := by
  unfold State.copyFailed
  dsimp only
  (repeat' split) <;> simp

@[simp] theorem replyParty_marks (s : State) (l : FLine) (e : Exchange) (t : Telegram) : marks (s.replyParty l e t) = marks s := by
  unfold State.replyParty
  (repeat' split) <;> simp

@[simp] theorem endGood_marks (s : State) (l : FLine) (e : Exchange) (t : Telegram) : marks (s.endGood l e t) = marks s := by
  unfold State.endGood
  simp

@[simp] theorem endFailed_marks (s : State) (l : FLine) (e : Exchange) : marks (s.endFailed l e) = marks s := by
  unfold State.endFailed
  split <;> simp

@[simp] theorem attemptFails_marks (s : State) (l : FLine) (e : Exchange) (f : AttemptFailure) : marks (s.attemptFails l e f) = marks s := by
  unfold State.attemptFails
  (repeat' split) <;> simp

@[simp] theorem alertTaken_marks (s : State) (l : FLine) (t : Telegram) : marks (s.alertTaken l t) = marks s := by
  unfold State.alertTaken
  dsimp only
  (repeat' split) <;> simp

@[simp] theorem lineIdle_marks (s : State) (l : FLine) : marks (s.lineIdle l) = marks s := by
  unfold State.lineIdle
  simp

@[simp] theorem sendRepeat_marks (s : State) (l : FLine) (e : Exchange) : marks (s.sendRepeat l e) = marks s := by
  unfold State.sendRepeat
  simp

@[simp] theorem markSent_marks (s : State) (o : Outgoing) : marks (s.markSent o) = marks s := by
  unfold State.markSent
  (repeat' split) <;> simp

@[simp] theorem sendSelected_marks (s : State) (l : FLine) (o : Outgoing) : marks (s.sendSelected l o) = marks s := by
  unfold State.sendSelected
  split <;> simp

@[simp] theorem sendEnds_marks (s : State) (l : FLine) (o : Outgoing) (t : Telegram) : marks (s.sendEnds l o t) = marks s := by
  unfold State.sendEnds
  dsimp only
  (repeat' split) <;> simp

@[simp] theorem answerDesk_marks (s : State) (t : DeskTelegram) (r : Result) (why : Option Reason) :
    marks (s.answerDesk t r why) = marks s := rfl

@[simp] theorem refuseBusy_marks (s : State) (t : DeskTelegram) (full : List FLine) : marks (s.refuseBusy t full) = marks s :=
  (answerDesk_marks _ _ _ _).trans (foldl_marks (by simp) _ _)

@[simp] theorem placeCopies_marks (s : State) (t : DeskTelegram) (flood : Option Nat) (ls : List FLine) :
    marks (s.placeCopies t flood ls) = marks s := foldl_marks (by simp) _ _

@[simp] theorem forwardPoll_marks (s : State) (t : DeskTelegram) : marks (s.forwardPoll t) = marks s := by
  unfold State.forwardPoll
  dsimp only
  repeat' split
  · simp
  · exact placeCopies_marks _ _ _ _
  · simp

@[simp] theorem forwardBound_marks (s : State) (t : DeskTelegram) (b : Binding) : marks (s.forwardBound t b) = marks s := by
  unfold State.forwardBound
  (repeat' split) <;> simp

@[simp] theorem forwardUnbound_marks (s : State) (t : DeskTelegram) : marks (s.forwardUnbound t) = marks s := by
  unfold State.forwardUnbound
  repeat' split
  case h_2.isFalse.isTrue => exact place_marks _ _ _
  case h_2.isFalse.isFalse.isFalse => exact place_marks _ _ _
  all_goals simp

@[simp] theorem forwardGroup_marks (s : State) (t : DeskTelegram) : marks (s.forwardGroup t) = marks s := by
  unfold State.forwardGroup
  dsimp only
  (repeat' split) <;> simp

@[simp] theorem deskStray_marks (s : State) : marks s.deskStray = marks s := rfl

@[simp] theorem forward_marks (s : State) (t : DeskTelegram) : marks (s.forward t) = marks s := by
  unfold State.forward
  (repeat' split) <;> simp

/-! ### The tables and the store -/

@[simp] theorem modMem_marks (s : State) (f : TableMem → TableMem) : marks (s.modMem f) = marks s := rfl

@[simp] theorem yardTaken_marks (s : State) (before : YardRec) : marks (s.yardTaken before) = marks s := rfl

@[simp] theorem boosterDamage_marks (s : State) (b : Nat) : marks (s.boosterDamage b) = marks s := by
  unfold State.boosterDamage
  (repeat' split) <;> simp

@[simp] theorem entryDamage_marks (s : State) (station : Nat) : marks (s.entryDamage station) = marks s := by
  unfold State.entryDamage
  (repeat' split) <;> simp

@[simp] theorem markDamaged_marks (s : State) (r : RecordRef) : marks (s.markDamaged r) = marks s := by
  cases r <;> simp only [State.markDamaged]
  case holder n | valve n | district n => split <;> simp
  case yard => exact setMeterStation_marks _ _ _
  case poll n =>
    split
    · simp
    · rfl
  all_goals simp

@[simp] theorem damageActs_marks (s : State) (modes : Mode × Mode) (before : YardRec) (r : RecordRef) :
    marks (s.damageActs modes before r) = marks s := by
  cases r <;> simp only [State.damageActs]
  case drawMode => split <;> simp
  case poolMode => split <;> simp
  all_goals simp

@[simp] theorem recordDamaged_marks (s : State) (r : RecordRef) : marks (s.recordDamaged r) = marks s := by
  unfold State.recordDamaged
  simp

@[simp] theorem corrected_marks (s : State) : marks s.corrected = marks s := by
  unfold State.corrected
  split <;> rfl

@[simp] theorem readRecord_marks (fs : Findings) (acc : State × Nat × Nat) (r : RecordRef) :
    marks (State.readRecord fs acc r).1 = marks acc.1 := by
  unfold State.readRecord
  (repeat' split) <;> simp

@[simp] theorem readRecords_marks (s : State) (fs : Findings) (rs : List RecordRef) : marks (s.readRecords fs rs).1 = marks s := by
  suffices h : ∀ acc : State × Nat × Nat, marks (rs.foldl (State.readRecord fs) acc).1 = marks acc.1 from h _
  induction rs with
  | nil => exact fun _ => rfl
  | cons r rs ih => exact fun acc => (ih _).trans (readRecord_marks fs acc r)

@[simp] theorem errorFound_marks (s : State) (e : Met) : marks (s.errorFound e) = marks s := by
  unfold State.errorFound
  dsimp only
  (repeat' split) <;> simp

@[simp] theorem tableWritten_marks (s : State) : marks s.tableWritten = marks s := by
  unfold State.tableWritten
  split <;> rfl

@[simp] theorem nextBlock_marks (s : State) (rest : List Block) (written : Nat) : marks (s.nextBlock rest written) = marks s := by
  unfold State.nextBlock
  split <;> rfl

@[simp] theorem blockWritten_marks (s : State) (w : StoreWrite) (good : Bool) : marks (s.blockWritten w good) = marks s := by
  unfold State.blockWritten
  (repeat' split) <;> simp

@[simp] theorem buildDirectory_marks (s : State) (static : Tbl (Kept (Option FLine × BitVec 12))) (groups : Tbl (Kept (BitVec 12))) :
    marks (s.buildDirectory static groups) = marks s :=
  (foldl_marks (fun _ _ => modEntry_marks _ _ _) _ _).trans
    ((bindAll_marks _ _).trans (foldl_marks (fun _ _ => createEntry_marks _ _ _) _ _))

@[simp] theorem meterStations_marks (s : State) : marks s.meterStations = marks s :=
  (setMeterStation_marks _ _ _).trans (foldl_marks (fun _ _ => setMeterStation_marks _ _ _) _ _)

/-! ### The requests -/

@[simp] theorem clearCounts_marks (s : State) (group : Nat) : marks (s.clearCounts group) = marks s := by
  unfold State.clearCounts
  split <;> rfl

@[simp] theorem reply_marks (s : State) (tag c : Nat) (r : Result) (ws : List Nat) : marks (s.reply tag c r ws) = marks s := rfl

@[simp] theorem replyData_marks (s : State) (tag c : Nat) (d : AnswerData) : marks (s.replyData tag c d) = marks s := rfl

@[simp] theorem bad_marks (s : State) (tag c position : Nat) : marks (s.bad tag c position) = marks s := rfl

@[simp] theorem badAnywhere_marks (s : State) (tag c : Nat) : marks (s.badAnywhere tag c) = marks s := rfl

@[simp] theorem badEntry_marks (s : State) (tag prior i : Nat) : marks (s.badEntry tag prior i) = marks s := by
  unfold State.badEntry
  split <;> rfl

@[simp] theorem enterRun_marks (s : State) : marks s.enterRun = marks s := rfl

@[simp] theorem cancelAutoRun_marks (s : State) : marks s.cancelAutoRun = marks s := rfl

@[simp] theorem doRun_marks (s : State) (tag : Nat) : marks (s.doRun tag) = marks s := by
  unfold State.doRun
  (repeat' split) <;> simp

@[simp] theorem doHold_marks (s : State) (tag : Nat) : marks (s.doHold tag) = marks s := by
  unfold State.doHold
  split <;> rfl

@[simp] theorem doStandby_marks (s : State) (tag : Nat) : marks (s.doStandby tag) = marks s := rfl

@[simp] theorem giveAnswer_marks (s : State) (tag c : Nat) (r : Result) (why : Option Reason) (d : AnswerData) :
    marks (s.giveAnswer tag c r why d) = marks s := rfl

@[simp] theorem doReadNotices_marks (s : State) (tag count : Nat) : marks (s.doReadNotices tag count) = marks s := by
  unfold State.doReadNotices
  (repeat' split) <;> rfl

@[simp] theorem doReadCounts_marks (s : State) (tag group clear : Nat) : marks (s.doReadCounts tag group clear) = marks s := by
  unfold State.doReadCounts
  (repeat' split) <;> simp

@[simp] theorem doWatch_marks (s : State) (tag station setting : Nat) : marks (s.doWatch tag station setting) = marks s := by
  unfold State.doWatch
  repeat' split
  case h_1 t on => simp [setWatch_marks on]
  all_goals simp

@[simp] theorem doSearch_marks (s : State) (tag start line kind group : Nat) : marks (s.doSearch tag start line kind group) = marks s := by
  unfold State.doSearch
  (repeat' split) <;> simp

@[simp] theorem doDelete_marks (s : State) (tag station : Nat) : marks (s.doDelete tag station) = marks s := by
  unfold State.doDelete
  (repeat' split) <;> simp

@[simp] theorem doClear_marks (s : State) (tag : Nat) : marks (s.doClear tag) = marks s := tableWritten_marks _

@[simp] theorem doTableCheck_marks (s : State) (tag : Nat) : marks (s.doTableCheck tag) = marks s := by
  unfold State.doTableCheck
  split <;> rfl

@[simp] theorem doStoreTables_marks (s : State) (tag : Nat) (skip : Word) (fs : Findings) :
    marks (s.doStoreTables tag skip fs) = marks s := by
  unfold State.doStoreTables
  dsimp only
  (repeat' split) <;> simp

@[simp] theorem doReadHolder_marks (s : State) (tag n : Nat) : marks (s.doReadHolder tag n) = marks s := by
  unfold State.doReadHolder
  (repeat' split) <;> simp

@[simp] theorem doBar_marks (s : State) (tag code n sel : Nat) (set : Bool) : marks (s.doBar tag code n sel set) = marks s := by
  unfold State.doBar
  (repeat' split) <;> simp

@[simp] theorem doClearFault_marks (s : State) (tag n : Nat) : marks (s.doClearFault tag n) = marks s := by
  unfold State.doClearFault
  (repeat' split) <;> simp

@[simp] theorem doReadValve_marks (s : State) (tag n : Nat) : marks (s.doReadValve tag n) = marks s := by
  unfold State.doReadValve
  (repeat' split) <;> simp

@[simp] theorem loadPending_unplaced (ts : List Nat) (f : Fill) : (loadPending ts f).unplaced = f.unplaced := by
  unfold loadPending
  split <;> rfl

@[simp] theorem doLoadRota_marks (s : State) (tag : Nat) (ts : List Nat) : marks (s.doLoadRota tag ts) = marks s := by
  unfold State.doLoadRota
  (repeat' split) <;> simp

@[simp] theorem doSetDrawMode_marks (s : State) (tag mode : Nat) : marks (s.doSetDrawMode tag mode) = marks s := by
  unfold State.doSetDrawMode
  (repeat' split) <;> simp

@[simp] theorem doSetDistrictMode_marks (s : State) (tag n mode : Nat) : marks (s.doSetDistrictMode tag n mode) = marks s := by
  unfold State.doSetDistrictMode
  (repeat' split) <;> simp

@[simp] theorem doReadDistrict_marks (s : State) (tag n : Nat) : marks (s.doReadDistrict tag n) = marks s := by
  unfold State.doReadDistrict
  (repeat' split) <;> simp

@[simp] theorem doSetPoolMode_marks (s : State) (tag mode : Nat) : marks (s.doSetPoolMode tag mode) = marks s := by
  unfold State.doSetPoolMode
  (repeat' split) <;> simp

@[simp] theorem doFreeBooster_marks (s : State) (tag n : Nat) : marks (s.doFreeBooster tag n) = marks s := by
  unfold State.doFreeBooster
  (repeat' split) <;> simp

@[simp] theorem doReadBoosters_marks (s : State) (tag : Nat) : marks (s.doReadBoosters tag) = marks s := rfl

@[simp] theorem doReadAccount_marks (s : State) (tag pick part : Nat) : marks (s.doReadAccount tag pick part) = marks s := by
  unfold State.doReadAccount
  (repeat' split) <;> simp

@[simp] theorem doReleaseAccount_marks (s : State) (tag number : Nat) : marks (s.doReleaseAccount tag number) = marks s := by
  unfold State.doReleaseAccount
  (repeat' split) <;> rfl

@[simp] theorem doReadEntry_marks (s : State) (tag table index part : Nat) (fs : Findings) :
    marks (s.doReadEntry tag table index part fs) = marks s := by
  unfold State.doReadEntry
  dsimp only
  (repeat' split) <;> simp

theorem checked_marks {s : State} (tag prior : Nat) (c : EntryCheck) {go : State → State} (h : marks (go s) = marks s) :
    marks (s.checked tag prior c go) = marks s := by
  cases c with
  | word i => exact badEntry_marks s tag prior i
  | relation => exact badAnywhere_marks s tag 2
  | ok => exact h

@[simp] theorem taken_marks (s : State) (tag : Nat) : marks (s.taken tag) = marks s := by
  unfold State.taken
  simp

/-! ### The writes of entries -/

@[simp] theorem writeHolder_marks (s : State) (tag n prior : Nat) (r : HolderRec) : marks (s.writeHolder tag n prior r) = marks s := by
  refine checked_marks tag prior _ ?_
  split <;> simp

@[simp] theorem takeValve_marks (s : State) (n : Nat) (r : ValveRec) : marks (s.takeValve n r) = marks s := by
  unfold State.takeValve
  (repeat' split) <;> simp

@[simp] theorem writeValve_marks (s : State) (tag n prior : Nat) (r : ValveRec) : marks (s.writeValve tag n prior r) = marks s := by
  refine checked_marks tag prior _ ?_
  (repeat' split) <;> simp

@[simp] theorem addPart_marks (s : State) (n : Nat) : marks (s.addPart n) = marks s := by
  unfold State.addPart
  split <;> rfl

@[simp] theorem takeDistrict_marks (s : State) (n : Nat) (r : DistrictRec) : marks (s.takeDistrict n r) = marks s := by
  unfold State.takeDistrict
  split <;> simp

@[simp] theorem writeDistrict_marks (s : State) (tag n prior : Nat) (r : DistrictRec) :
    marks (s.writeDistrict tag n prior r) = marks s := by
  refine checked_marks tag prior _ ?_
  (repeat' split) <;> simp

@[simp] theorem takeBooster_marks (s : State) (n : Nat) (r : BoosterRec) : marks (s.takeBooster n r) = marks s := by
  unfold State.takeBooster
  split <;> simp

@[simp] theorem writeBooster_marks (s : State) (tag n prior : Nat) (r : BoosterRec) :
    marks (s.writeBooster tag n prior r) = marks s := by
  refine checked_marks tag prior _ ?_
  dsimp only
  (repeat' split) <;> simp

@[simp] theorem writeMeter_marks (s : State) (tag n prior weight limit : Nat) :
    marks (s.writeMeter tag n prior weight limit) = marks s :=
  checked_marks tag prior _ (by simp)

@[simp] theorem takeYard_marks (s : State) (r : YardRec) : marks (s.takeYard r) = marks s := by
  unfold State.takeYard
  dsimp only
  refine (yardTaken_marks _ _).trans ?_
  have written (news : List (Binding × Nat)) : marks (({ s.rebind [.makeMeter] news with
      yard := r, yardPresent := true, yardDamaged := false } : State).setMeterStation 0 r.makeMeter) = marks s :=
    (setMeterStation_marks _ _ _).trans (rebind_marks s _ news)
  split
  · exact written _
  · exact written _

@[simp] theorem writeYard_marks (s : State) (tag prior : Nat) (r : YardRec) : marks (s.writeYard tag prior r) = marks s := by
  refine checked_marks tag prior _ ?_
  split <;> simp

@[simp] theorem writeLine_marks (s : State) (tag n prior : Nat) (r : LineSet) : marks (s.writeLine tag n prior r) = marks s := by
  refine checked_marks tag prior _ ?_
  split <;> simp

@[simp] theorem emptyPoll_marks (s : State) (n : Nat) : marks (s.emptyPoll n) = marks s := rfl

@[simp] theorem takePoll_marks (s : State) (n : Nat) (r : PollRec) : marks (s.takePoll n r) = marks s := by
  unfold State.takePoll
  (repeat' split) <;> rfl

@[simp] theorem writePoll_marks (s : State) (tag n prior : Nat) (r : PollRec) : marks (s.writePoll tag n prior r) = marks s := by
  refine checked_marks tag prior _ ?_
  split <;> simp

@[simp] theorem writeDir_marks (s : State) (tag n prior : Nat) (r : DirWrite) : marks (s.writeDir tag n prior r) = marks s := by
  refine checked_marks tag prior _ ?_
  split
  · next t written => simp [writeDirectory_marks written]
  · simp

@[simp] theorem writeDraw_marks (s : State) (tag prior : Nat) (r : DrawRec) : marks (s.writeDraw tag prior r) = marks s :=
  checked_marks tag prior _ (by simp)

@[simp] theorem removeHolder_marks (s : State) (tag n : Nat) : marks (s.removeHolder tag n) = marks s := by
  unfold State.removeHolder
  (repeat' split) <;> simp

@[simp] theorem removeValve_marks (s : State) (tag n : Nat) : marks (s.removeValve tag n) = marks s := by
  unfold State.removeValve
  repeat' split
  · simp
  · simp
  · exact (taken_marks _ _).trans (unbind_marks _ _)

@[simp] theorem removeDistrict_marks (s : State) (tag n : Nat) : marks (s.removeDistrict tag n) = marks s := by
  unfold State.removeDistrict
  repeat' split
  · simp
  · simp
  · refine (taken_marks _ _).trans ((setMeterStation_marks _ _ _).trans ?_)
    exact (unbind_marks _ _).trans ((unbind_marks _ _).trans (unbind_marks _ _))

@[simp] theorem removeBooster_marks (s : State) (tag n : Nat) : marks (s.removeBooster tag n) = marks s := by
  unfold State.removeBooster
  repeat' split
  · simp
  · simp
  · exact (taken_marks _ _).trans (unbind_marks _ _)

@[simp] theorem removeEntryOf_marks (s : State) (tag table index : Nat) : marks (s.removeEntryOf tag table index) = marks s := by
  unfold State.removeEntryOf
  split <;> simp

theorem formed_marks {α : Type} {s : State} (tag prior : Nat) (e : Except Nat α) {go : α → State} (h : ∀ a, marks (go a) = marks s) :
    marks (s.formed tag prior e go) = marks s := by
  cases e with
  | ok a => exact h a
  | error i => exact badEntry_marks s tag prior i

@[simp] theorem writeWhole_marks (s : State) (tag table n prior : Nat) (words : List Word) :
    marks (s.writeWhole tag table n prior words) = marks s := by
  unfold State.writeWhole
  dsimp only
  split
  case h_5 => split <;> simp
  all_goals exact formed_marks tag prior _ (by simp)

@[simp] theorem setStaged_marks (s : State) (g : Option Staged) : marks (s.setStaged g) = marks s := rfl

@[simp] theorem acceptPart_marks (s : State) (tag table index part : Nat) (final empty : Bool) (before words : List Word) :
    marks (s.acceptPart tag table index part final empty before words) = marks s := by
  unfold State.acceptPart
  (repeat' split) <;> simp

@[simp] theorem doWriteEntry_marks (s : State) (tag table index part : Nat) (final empty : Bool) (words : List Word) :
    marks (s.doWriteEntry tag table index part final empty words) = marks s := by
  unfold State.doWriteEntry
  (repeat' split) <;> simp

@[simp] theorem writeTyped_marks (s : State) (tag table index : Nat) {go : State → State} (h : ∀ u, marks (go u) = marks u) :
    marks (s.writeTyped tag table index go) = marks s := by
  unfold State.writeTyped
  split <;> simp [h]

@[simp] theorem badForm_marks (s : State) (tag code position : Nat) : marks (s.badForm tag code position) = marks s := by
  unfold State.badForm
  split <;> rfl

/-! ### What the hand-offs and the commands do -/

@[simp] theorem valveActs_marks (s : State) (v : Nat) (byReport changed : Bool) : marks (s.valveActs v byReport changed) = marks s := by
  unfold State.valveActs
  simp

@[simp] theorem holderActs_marks (s : State) (h : Nat) (entered : Bool) : marks (s.holderActs h entered) = marks s := by
  unfold State.holderActs
  split <;> simp

@[simp] theorem modDesk_marks (s : State) (f : Desk → Desk) : marks (s.modDesk f) = marks s := rfl

@[simp] theorem fieldLineError_marks (s : State) (l : FLine) : marks (s.fieldLineError l) = marks s := by
  unfold State.fieldLineError
  dsimp only
  (repeat' split) <;> simp

@[simp] theorem wrongTelegram_marks (s : State) (l : FLine) (t : Telegram) : marks (s.wrongTelegram l t) = marks s := by
  unfold State.wrongTelegram
  split <;> simp

@[simp] theorem makeAutoRun_marks (s : State) : marks s.makeAutoRun = marks s := by
  unfold State.makeAutoRun
  (repeat' split) <;> simp

@[simp] theorem rateWindow_marks (s : State) : marks s.rateWindow = marks s := foldl_marks windowOne_marks _ _

@[simp] theorem takeDesk_marks (s : State) (t : DeskTelegram) : marks (s.takeDesk t) = marks s := by
  unfold State.takeDesk
  split <;> simp

/-! ### Steady work -/

/-- `t` comes from `s` by work that leaves the queue of commands, the clock in its range, and flags 6 and 7 tied to the reserve level and
the make's mark. -/
structure Steady (s t : State) : Prop where
  pending : t.pending = s.pending
  clock : ClockSound s → ClockSound t
  flags : FlagsSound s → FlagsSound t

theorem Steady.refl (s : State) : Steady s s := ⟨rfl, id, id⟩

theorem Steady.trans {a b c : State} (h : Steady a b) (k : Steady b c) : Steady a c :=
  ⟨k.pending.trans h.pending, fun x => k.clock (h.clock x), fun x => k.flags (h.flags x)⟩

theorem steady_of_marks {s t : State} (e : marks t = marks s) : Steady s t := by
  simp only [marks, Prod.mk.injEq] at e
  obtain ⟨pending, clock, flags, level, unplaced⟩ := e
  exact ⟨pending, fun x => by rwa [ClockSound, clock], fun x => by rwa [FlagsSound, flags, level, unplaced]⟩

/-- Work that leaves the marks, after steady work. -/
theorem Steady.then {a s t : State} (h : Steady a s) (e : marks t = marks s) : Steady a t := h.trans (steady_of_marks e)

theorem Steady.ite {s t u : State} {p : Prop} [Decidable p] (yes : Steady s t) (no : Steady s u) :
    Steady s (if p then t else u) := by
  split
  · exact yes
  · exact no

theorem setUnplaced_steady (s : State) (b : Bool) : Steady s (s.setUnplaced b) :=
  ⟨rfl, id, fun x => ⟨(setFlag_get _ 7 6 _ (.inr ⟨rfl, rfl⟩)).trans x.1, setFlag_self _ 7 _ (.inr rfl)⟩⟩

theorem setLevel_steady (s : State) (l : Nat) : Steady s (s.setLevel l) :=
  ⟨rfl, id, fun x => ⟨setFlag_self _ 6 _ (.inl rfl), (setFlag_get _ 6 7 _ (.inl ⟨rfl, rfl⟩)).trans x.2⟩⟩

theorem makeUnplaced_steady (s : State) : Steady s s.makeUnplaced := by
  unfold State.makeUnplaced
  dsimp only
  have told subject : Steady s (if s.fill.unplaced then s else s.notify .makeUnplaced subject .absent) :=
    .ite (.refl s) (steady_of_marks rfl)
  exact ((told _).trans (setUnplaced_steady _ true)).then (modFill_marks _ _ rfl)

theorem fillSelect_steady (s : State) : Steady s s.fillSelect := by
  unfold State.fillSelect
  dsimp only
  have cleared : Steady s ((s.setUnplaced false).modFill fun f => { f with selDue := false }) :=
    (setUnplaced_steady s false).then (modFill_marks _ _ rfl)
  repeat' split
  · exact makeUnplaced_steady s
  · exact cleared
  · exact cleared.then (beginFill_marks _ _)
  · exact .refl s

theorem fillFailed_steady (s : State) (c : FillChange) : Steady s (s.fillFailed c) :=
  have told : Steady s ((s.modFill fun f => { f with chg := none }).notify .fillFailed (.holder c.new) .absent) :=
    steady_of_marks (by simp)
  .ite told (.ite (told.trans (makeUnplaced_steady _)) told)

theorem fillOutcome_steady (s : State) (v : Nat) (code : OrderCode) (o : SlotOutcome) : Steady s (s.fillOutcome v code o) := by
  unfold State.fillOutcome
  split
  · exact .refl s
  · next c _ => exact .ite (.ite (steady_of_marks (abandonFill_marks s c)) (fillFailed_steady s c)) (.refl s)

theorem levelEval_steady (s : State) : Steady s s.levelEval := by
  unfold State.levelEval
  dsimp only
  repeat' split
  · exact setLevel_steady s _
  · exact steady_of_marks (modPool_marks _ _ rfl)
  · exact .refl s

theorem usableNow_steady (s : State) : Steady s s.usableNow :=
  (steady_of_marks (modPool_marks _ _ rfl)).trans (levelEval_steady _)

theorem valveOutcome_steady {s u : State} (answered : Steady s u) (v : Nat) (code : OrderCode) (origin : Origin) (o : SlotOutcome) :
    Steady s (((if origin = .fill then u.fillOutcome v code o else u).drawOutcome v code origin o).hand (testsAgain o)) :=
  have filled : Steady s (if origin = .fill then u.fillOutcome v code o else u) :=
    .ite (answered.trans (fillOutcome_steady _ _ _ _)) answered
  filled.then (by simp)

theorem outcomeActs_steady (s : State) (t : Target) (code : OrderCode) (origin : Origin) (tag : Option DeskRef) (o : SlotOutcome)
    (owed : Bool) : Steady s (s.outcomeActs t code origin tag o owed) := by
  have answered : Steady s (match deskOf origin tag, o with
      | some g, .superseded => s.answerOrder g .superseded none owed
      | _, _ => s) := by
    split
    · exact steady_of_marks (answerOrder_marks _ _ _ _ _)
    · exact .refl s
  cases t with
  | valve v => exact valveOutcome_steady answered v code origin o
  | governor d => exact answered.trans (steady_of_marks (governorOutcome_marks _ d o))
  | booster b => exact answered.trans (steady_of_marks (boosterOutcome_marks _ b code o))

/-- Whatever hand-off is acted on, the work is steady. -/
theorem act_steady (x : Handoff) (s : State) (owed : Bool) : Steady s (act x s owed) := by
  cases x
  case fillSelect => exact fillSelect_steady s
  case outcome t code origin tag o => exact outcomeActs_steady s t code origin tag o owed
  case usable => exact usableNow_steady s
  case levelEval => exact levelEval_steady s
  all_goals exact steady_of_marks (by simp [act])

theorem settle_steady (n : Nat) (s : State) : Steady s (settle n s) := by
  induction n generalizing s with
  | zero => exact .refl s
  | succ n ih =>
    unfold settle
    split
    · exact .refl s
    · next x rest _ =>
      have acted : Steady s (act x { s with handoffs := [] } (owesAnswer rest)) :=
        .trans (b := { s with handoffs := [] }) (steady_of_marks rfl) (act_steady x _ _)
      refine .trans ?_ (ih _)
      exact acted.then rfl

theorem meetErrors_marks (s : State) : marks s.meetErrors = marks s := foldl_marks errorFound_marks _ _

theorem errorsRead_steady (s : State) : Steady s s.errorsRead := by
  unfold State.errorsRead
  split
  · exact .refl s
  · exact (steady_of_marks (meetErrors_marks s)).trans (settle_steady _ _)

/-! ### Commands are steady -/

theorem stopRotaNow_steady (s : State) : Steady s s.stopRotaNow := (setUnplaced_steady s false).then (modFill_marks _ _ rfl)

theorem startRotaNow_steady (s : State) : Steady s s.startRotaNow := by
  unfold State.startRotaNow
  dsimp only
  have started := fun f keeps => (setUnplaced_steady s false).then (modFill_marks _ f keeps)
  split
  · exact (started _ rfl).then (hand_marks _ _)
  · exact started _ rfl

theorem restartFill_steady (s : State) : Steady s s.restartFill := (stopRotaNow_steady s).then (modFill_marks _ _ rfl)

theorem restartUnits_steady (s : State) : Steady s s.restartUnits := by
  unfold State.restartUnits
  refine .then (.trans ?_ (restartFill_steady _)) (restartDraw_marks _)
  exact steady_of_marks rfl

theorem doRestart_steady (s : State) (tag : Nat) : Steady s (s.doRestart tag) := by
  unfold State.doRestart
  dsimp only
  have restarted : Steady s s.cancelAutoRun.restartUnits := (steady_of_marks (cancelAutoRun_marks s)).trans (restartUnits_steady _)
  split
  · exact restarted.then (by simp)
  · exact restarted.then (by simp)

theorem doSetClock_steady (s : State) (tag day second : Nat) : Steady s (s.doSetClock tag day second) := by
  unfold State.doSetClock
  split
  · exact steady_of_marks (bad_marks _ _ _ _)
  · next d =>
    split
    · exact steady_of_marks (bad_marks _ _ _ _)
    · next c => exact ⟨rfl, fun _ => ⟨Nat.not_le.1 c, Nat.lt_succ_of_le (Nat.not_lt.1 d)⟩, id⟩

theorem tick_steady (s : State) : Steady s s.tick := by
  refine ⟨rfl, fun x => ?_, id⟩
  show (nextSecond s.clock).second < _ ∧ (nextSecond s.clock).day < _
  unfold nextSecond
  split
  · next more => exact ⟨more, x.2⟩
  · exact ⟨Nat.zero_lt_succ _, Nat.mod_lt _ (Nat.zero_lt_succ _)⟩

theorem doStartRota_steady (s : State) (tag : Nat) : Steady s (s.doStartRota tag) :=
  .ite (steady_of_marks (reply_marks _ _ _ _ _)) ((startRotaNow_steady s).then (reply_marks _ _ _ _ _))

theorem doStopRota_steady (s : State) (tag : Nat) : Steady s (s.doStopRota tag) :=
  (stopRotaNow_steady s).then (reply_marks _ _ _ _ _)

/-- A flag written reads back, and leaves the others. -/
theorem setFlag_getLsbD (fs : BitVec 8) (i n : Nat) (b : Bool) (flag : n < 8) :
    (setFlag fs i b).getLsbD n = if n = i then b else fs.getLsbD n := by
  have mask : (1#8 <<< i).getLsbD n = decide (n = i) := by
    rw [BitVec.getLsbD_shiftLeft, BitVec.getLsbD_one]
    by_cases h : n = i
    · simp [h, h ▸ flag]
    · simp [h, flag]
      omega
  unfold setFlag
  cases b
  · simp only [Bool.false_eq_true, if_false, BitVec.getLsbD_and, BitVec.getLsbD_not, mask, flag]
    by_cases h : n = i <;> simp [h]
  · simp only [if_true, BitVec.getLsbD_or, mask]
    by_cases h : n = i <;> simp [h]

theorem foldl_setFlag_getLsbD (f : Nat → Bool) (n : Nat) (flag : n < 8) (l : List Nat) (fs : BitVec 8) :
    (l.foldl (fun acc i => setFlag acc i (f i)) fs).getLsbD n = if n ∈ l then f n else fs.getLsbD n := by
  induction l generalizing fs with
  | nil => simp
  | cons i l ih =>
    rw [List.foldl_cons, ih, setFlag_getLsbD _ _ _ _ flag]
    by_cases h : n = i <;> simp [h]

/-- SET FLAGS applies the codes of flags 0 to 5, and leaves flags 6 and 7 as they are (10 R203). -/
theorem applyFlags_getLsbD (codes : Word) (fs : BitVec 8) (n : Nat) (flag : n < 8) :
    (applyFlags codes fs).getLsbD n = if n < 6 then flagAfter (codes.toNat / 4 ^ n % 4) (fs.getLsbD n) else fs.getLsbD n := by
  have named : n ∈ [0, 1, 2, 3, 4, 5] ↔ n < 6 := by
    simp only [List.mem_cons, List.not_mem_nil, or_false]
    omega
  unfold applyFlags
  rw [foldl_setFlag_getLsbD _ n flag]
  simp only [named]

theorem doSetFlags_steady (s : State) (tag : Nat) (codes : Word) : Steady s (s.doSetFlags tag codes) := by
  have applied : Steady s { s with flags := applyFlags codes s.flags } :=
    ⟨rfl, id, fun x => ⟨(applyFlags_getLsbD _ _ 6 (by decide)).trans x.1, (applyFlags_getLsbD _ _ 7 (by decide)).trans x.2⟩⟩
  exact applied.then (hand_marks _ _)

@[simp] theorem loadBlock_marks (s : State) (c : BlockContent) : marks (s.loadBlock c) = marks s := by
  cases c <;> rfl

/-- Start-up begins from the reset state, whose clock, level and flags are 0 (11 R212). -/
theorem startUp_steady (s : State) (r : StoreRead) : Steady s (s.startUp r) := by
  have base : Steady s { State.reset with pending := s.pending, free := s.free, mem := { State.reset.mem with store := s.mem.store } } :=
    ⟨rfl, fun _ => ⟨Nat.zero_lt_succ _, Nat.zero_lt_succ _⟩, fun _ => (by decide : FlagsSound State.reset)⟩
  have loaded : ∀ (acc : State) (b : Block), marks (match b.content with
      | some c => acc.loadBlock c
      | none => acc) = marks acc := by
    intro acc b
    split
    · exact loadBlock_marks acc _
    · rfl
  exact base.trans (steady_of_marks <|
    (hand_marks _ _).trans <| (meterStations_marks _).trans <| (buildDirectory_marks _ _ _).trans <| foldl_marks loaded _ _)

/-- Every request is steady work: those that write the clock, the flags, the level or the make's mark each by their own lemma. -/
theorem perform_steady (s : State) (tag : Nat) (fs : Findings) (q : Request) : Steady s (s.perform tag fs q) := by
  cases q
  case restart => exact doRestart_steady s tag
  case setClock day second => exact doSetClock_steady s tag day second
  case setFlags codes => exact doSetFlags_steady s tag codes
  case startRota => exact doStartRota_steady s tag
  case stopRota => exact doStopRota_steady s tag
  all_goals exact steady_of_marks (by simp [State.perform])

theorem actAsk_steady (s : State) (tag : Nat) (body : List Word) (fs : Findings) : Steady s (s.actAsk tag body fs) := by
  unfold State.actAsk
  split
  · exact perform_steady s tag fs _
  · split
    · exact steady_of_marks (badForm_marks _ _ _ _)
    · exact steady_of_marks (bad_marks _ _ _ _)

theorem takeAsk_steady {act : State → State} (h : AskHead) (code : Nat) (s : State) (acts : Steady s (act s)) :
    Steady s (s.takeAsk h code act) := by
  unfold State.takeAsk
  repeat' split
  · exact steady_of_marks rfl
  · exact acts
  · exact .refl s

theorem serveAsk_steady (s : State) (h : AskHead) (body : List Word) (fs : Findings) : Steady s (s.serveAsk h body fs) := by
  unfold State.serveAsk
  split
  · exact takeAsk_steady h _ s (actAsk_steady s _ _ fs)
  · exact .ite (actAsk_steady s _ _ fs) (.refl s)

theorem serveDesk_steady (s : State) (fs : Findings) : Steady s (s.serveDesk fs) := by
  unfold State.serveDesk
  split
  · split
    · exact .refl s
    · next t rest _ =>
      have read : Steady s { s with desk := { s.desk with rx := rest } } := steady_of_marks rfl
      dsimp only
      split
      · exact .ite (read.trans (serveAsk_steady _ _ _ _)) (read.then (deskStray_marks _))
      · exact read.then (forward_marks _ _)
      · exact read.then (forward_marks _ _)
      · exact read.then (deskStray_marks _)
  · exact .refl s

/-! ### Every command is steady -/

theorem afterReads_steady {f : State → State} (s : State) (work : ∀ u, Steady u (f u)) :
    ∃ t, afterReads f s = .next t ∧ Steady s t :=
  ⟨_, rfl, ((errorsRead_steady s).trans (work _)).trans (settle_steady _ _)⟩

theorem ask_steady {act : State → State} (h : AskHead) (code : Nat) (s : State) (acts : ∀ u, Steady u (act u)) :
    ∃ t, afterReads (fun u => u.takeAsk h code act) s = .next t ∧ Steady s t :=
  afterReads_steady s fun u => takeAsk_steady h code u (acts u)

/-- Work that leaves the marks of every state. -/
theorem marked_steady {f : State → State} (s : State) (work : ∀ u, marks (f u) = marks u) :
    ∃ t, afterReads f s = .next t ∧ Steady s t :=
  afterReads_steady s fun u => steady_of_marks (work u)

theorem exec_steady (c : Instr) (s : State) : ∃ t, exec c s = .next t ∧ Steady s t := by
  cases c <;> dsimp only [exec]
  case powerOnReset r => exact ⟨_, rfl, (startUp_steady s r).trans (settle_steady _ _)⟩
  case deskBufferServe fs => exact afterReads_steady s fun u => serveDesk_steady u fs
  case askMalformed h body => exact afterReads_steady s fun u => serveAsk_steady u h body []
  case askRepeat h body => exact afterReads_steady s fun u => serveAsk_steady u h body []
  case restart h => exact ask_steady h _ s fun u => doRestart_steady u _
  case setClock h day second => exact ask_steady h _ s fun u => doSetClock_steady u _ day second
  case setFlags h codes => exact ask_steady h _ s fun u => doSetFlags_steady u _ codes
  case startRota h => exact ask_steady h _ s fun u => doStartRota_steady u _
  case stopRota h => exact ask_steady h _ s fun u => doStopRota_steady u _
  case recoveryExpiry => exact afterReads_steady s fun u => .ite (setLevel_steady u _) (.refl u)
  case yardClockSecond => exact afterReads_steady s fun u => tick_steady u
  case deskPoll t | deskOrderBound t | deskOrderUnbound t | deskGroupTelegram t =>
    exact marked_steady s fun u => takeDesk_marks u _
  case deskTransmitDone => exact marked_steady s fun u => modDesk_marks u _
  case lineError l r =>
    refine marked_steady s fun u => ?_
    cases l <;> dsimp only <;> split <;> simp
  case telegramBegins l =>
    refine marked_steady s fun u => ?_
    cases l <;> dsimp only
    · exact modDesk_marks u _
    · split <;> simp
  case autoRun | cycleExpiry | rateWindowExpiry | minuteBoundary | chatterWindowExpiry | deskTelegramReceived | storeBlockWritten |
      fieldReplyTaken | fieldAlertReceived | fieldStray | replyNotOfRightForm | fieldSendEnd =>
    refine marked_steady s fun u => ?_
    split <;> simp
  case accountCloseDue | parkTimerExpiry | blindGraceExpiry | travelAllowanceExpiry | boosterDeadlineExpiry | turnTimerExpiry |
      deferralDeadlineExpiry | releaseHoldExpiry | undecidedDeadlineExpiry | attemptDeadlineExpiry | tableCheckDone =>
    refine marked_steady s fun u => ?_
    (repeat' split) <;> simp
  case fieldSendStart l =>
    refine marked_steady s fun u => ?_
    dsimp only
    (repeat' split) <;> simp
  case settleExpiry | agingExpiry =>
    refine marked_steady s fun u => ?_
    (repeat' split) <;> rfl
  case writePollPosition h n r =>
    refine ask_steady h _ s fun u => steady_of_marks (writeTyped_marks _ _ _ _ fun v => ?_)
    cases r <;> simp
  all_goals exact ask_steady _ _ s fun u => steady_of_marks (by simp)

/-! ### The obligations of the step -/

/-- Whatever the step, its command is steady work on the state whose queue is one shorter. -/
theorem step_steady {s t : State} (stepped : step s = .next t) : ∃ rest, Steady { s with pending := rest } t := by
  unfold step at stepped
  split at stepped
  · obtain rfl : settle Config.handoffBound s.meetErrors = t := by injection stepped
    exact ⟨s.pending, (steady_of_marks (meetErrors_marks s)).trans (settle_steady _ _)⟩
  · next c rest _ =>
    obtain ⟨u, executed, steady⟩ := exec_steady c { s with pending := rest }
    obtain rfl : u = t := by
      rw [executed] at stepped
      injection stepped
    exact ⟨rest, steady⟩

/-- Settles O4: the clock is written by SET CLOCK, by the second and by start-up only, each within the day. -/
theorem stepKeepsTheClockInRange : Obligations.StepKeepsTheClockInRange := by
  intro s t inRange stepped
  obtain ⟨rest, steady⟩ := step_steady stepped
  exact steady.clock inRange

/-- Settles O6: flags 6 and 7 are written with the reserve level and the make's mark, in the same operation. -/
theorem stepKeepsTheYardFlagsTied : Obligations.StepKeepsTheYardFlagsTied := by
  intro s t tied stepped
  obtain ⟨rest, steady⟩ := step_steady stepped
  exact steady.flags tied

/-- Settles O2: every command is steady work in a next state, and begins with the errors that its reads meet. -/
theorem everyCommandEnds : Obligations.EveryCommandEnds := by
  refine ⟨fun c s => ?_, fun s => ⟨fun calm => State.errorsRead_none calm, fun errors => ?_, s.errorsRead_met, fun c notReset => ?_⟩⟩
  · obtain ⟨t, executed, steady⟩ := exec_steady c s
    exact ⟨t, executed, steady.pending⟩
  · unfold State.errorsRead
    rw [if_neg errors]
    rfl
  · obtain ⟨effect, runs⟩ := exec_afterReads c notReset
    rw [runs, runs, afterReads_errorsRead]

/-! ### Entries in their words -/

@[simp] theorem yesNo_bit (i : Nat) (b : Bool) : yesNo i (bit b) = .ok b := by cases b <;> rfl

/-- A long value reads back from its two words. -/
theorem join2_two {n : Nat} (fits : longOk n = true) : join2 (n / 65536 % 65536) (n % 65536) = n := by
  have bound : n < 4294967296 := of_decide_eq_true fits
  unfold join2
  omega

theorem wordSigned_signedWord {i : Int} (low : -32768 ≤ i) (high : i ≤ 32767) : wordSigned (signedWord i) = i := by
  unfold wordSigned signedWord
  split
  · omega
  · omega

theorem decodeHolder_encodeHolder (r : HolderRec) : decodeHolder (encodeHolder r) = .ok r := by
  obtain ⟨inService, construction, fastRise, lifts, l1, l2, l3, l4, margin⟩ := r
  cases construction <;> simp [encodeHolder, decodeHolder, decodeLifts]

theorem decodeBooster_encodeBooster (r : BoosterRec) : decodeBooster (encodeBooster r) = .ok r := by
  simp [encodeBooster, decodeBooster]

theorem decodePoll_encodePoll (r : PollRec) : decodePoll (encodePoll r) = .ok r := by
  simp [encodePoll, decodePoll, wordOf]

theorem decodeDir_encodeDir (r : DirWrite) : decodeDir (encodeDir r) = .ok r := by
  obtain ⟨station, line, groups⟩ := r
  have fits : ¬ 4096 ≤ groups.toNat := Nat.not_le.2 groups.isLt
  rcases line with _ | l
  · simp [encodeDir, decodeDir, locationWord, fits]
  · cases l <;> simp [encodeDir, decodeDir, locationWord, linePlace, fits]

/-- The four places of a draw record hold the listed holders, and zeros behind them. -/
theorem decodeDraw_encodeDraw (r : DrawRec) (few : r.list.length ≤ 4) : decodeDraw (encodeDraw r) = .ok r := by
  obtain ⟨list, count⟩ := r
  rcases list with _ | ⟨a, _ | ⟨b, _ | ⟨c, _ | ⟨d, _ | ⟨e, rest⟩⟩⟩⟩⟩
  iterate 5 rfl
  exact absurd few (Nat.not_le.2 (Nat.le_add_left 5 rest.length))

/-! ### District records -/

theorem encodeProfile_length (p : List Segment) : (encodeProfile p).length = 13 := by
  simp [encodeProfile]

theorem segmentsOf_encoded (p : List Segment) (rest : List Nat) :
    segmentsOf p.length ((p.flatMap fun g => [g.start, g.setpoint]) ++ rest) = p := by
  induction p with
  | nil => rfl
  | cons g p ih => exact congrArg (g :: ·) ih

theorem segmentWords_length (p : List Segment) : (p.flatMap fun g => [g.start, g.setpoint]).length = 2 * p.length := by
  induction p with
  | nil => rfl
  | cons g p ih =>
    rw [List.flatMap_cons, List.length_append, ih, List.length_cons, List.length_cons, List.length_cons, List.length_nil]
    omega

theorem decodeProfile_encodeProfile (i : Nat) {p : List Segment} (few : p.length ≤ 6) :
    decodeProfile i (encodeProfile p) = .ok p := by
  have short : (p.flatMap fun g => [g.start, g.setpoint]).length ≤ 12 := by
    rw [segmentWords_length]
    omega
  rw [encodeProfile, decodeProfile, if_pos few, List.take_append, List.take_of_length_le short, segmentsOf_encoded]

/-- The parts of a district's 38 words: seven words, two profiles of 13 words, and five words. -/
theorem district_parts (head a b tail : List Nat) (h : head.length = 7) (ha : a.length = 13) (hb : b.length = 13) :
    (head ++ a ++ b ++ tail).take 7 = head ∧ ((head ++ a ++ b ++ tail).drop 7).take 13 = a
      ∧ ((head ++ a ++ b ++ tail).drop 20).take 13 = b ∧ (head ++ a ++ b ++ tail).drop 33 = tail := by
  have two : (head ++ a).length = 20 := by simp [h, ha]
  have three : (head ++ a ++ b).length = 33 := by simp [h, ha, hb]
  refine ⟨?_, ?_, ?_, List.drop_left' three⟩
  · simp [h]
  · simp [h, ha]
  · rw [List.append_assoc (head ++ a), List.drop_left' two, List.take_left' hb]

theorem decodeDistrict_parts {sv md gov rec met gain fl pf db st rk bo : Nat} {a b : List Nat} {pa pb : List Segment}
    {inService manual boost : Bool} (ha : a.length = 13) (hb : b.length = 13) (service : yesNo 0 sv = .ok inService)
    (mode : yesNo 1 md = .ok manual) (first : decodeProfile 7 a = .ok pa) (second : decodeProfile 20 b = .ok pb)
    (boosts : yesNo 37 bo = .ok boost) :
    decodeDistrict ([sv, md, gov, rec, met, gain, fl] ++ a ++ b ++ [pf, db, st, rk, bo])
      = .ok ⟨inService, !manual, gov, rec, met, wordSigned gain, fl, pa, pb, if pf = 0 then none else some (pf - 1), db, st, rk, boost⟩ := by
  obtain ⟨headWords, firstWords, secondWords, tailWords⟩ :=
    district_parts [sv, md, gov, rec, met, gain, fl] a b [pf, db, st, rk, bo] rfl ha hb
  unfold decodeDistrict
  rw [headWords, firstWords, secondWords, tailWords]
  dsimp only
  rw [service, mode, first, second, boosts]

theorem decodeDistrict_encodeDistrict (r : DistrictRec) (gain : -32768 ≤ r.headGain ∧ r.headGain ≤ 32767) (a : r.profA.length ≤ 6)
    (b : r.profB.length ≤ 6) : decodeDistrict (encodeDistrict r) = .ok r := by
  have mode : yesNo 1 (if r.auto then 0 else 1) = .ok !r.auto := by cases r.auto <;> rfl
  refine (decodeDistrict_parts (encodeProfile_length _) (encodeProfile_length _) (yesNo_bit _ _) mode
    (decodeProfile_encodeProfile _ a) (decodeProfile_encodeProfile _ b) (yesNo_bit _ _)).trans ?_
  rw [wordSigned_signedWord gain.1 gain.2, Bool.not_not]
  obtain ⟨_, _, _, _, _, _, _, _, _, flag, _⟩ := r
  cases flag <;> rfl

/-! ### The yard record -/

theorem ne_zero_of_presentOk {n : Nat} (present : presentOk (some n) = true) : n ≠ 0 := by
  rintro rfl
  cases present

/-- The word of a value that may be absent: 0 where it is. -/
def optionalWord (o : Option Nat) : Nat := o.getD 0

theorem optionalWord_reads {o : Option Nat} (present : presentOk o = true) :
    (if optionalWord o = 0 then none else some (optionalWord o)) = o := by
  cases o with
  | none => rfl
  | some n => exact if_neg (ne_zero_of_presentOk present)

/-- The 24 words of a yard record. -/
theorem encodeYard_words (r : YardRec) : encodeYard r = [r.park, r.turnPeriod, r.margin] ++ two r.mark1 ++ two r.mark2 ++ two r.mark3
    ++ two r.hyst ++ [r.recovery, r.cut1, r.cut2, r.cut3, r.releaseHold, optionalWord r.makeMeter] ++ two r.tolerance
    ++ [r.interval, optionalWord r.aging, r.cyclePeriod, r.lostThreshold, bit r.autoRun] := by
  obtain ⟨_, _, _, _, _, _, _, _, _, _, _, _, makeMeter, _, _, aging, _⟩ := r
  cases makeMeter <;> cases aging <;> rfl

theorem decodeYard_encodeYard (r : YardRec) (longs : [r.mark1, r.mark2, r.mark3, r.hyst, r.tolerance].all longOk = true)
    (meter : presentOk r.makeMeter = true) (aging : presentOk r.aging = true) : decodeYard (encodeYard r) = .ok r := by
  simp only [List.all_cons, List.all_nil, Bool.and_true, Bool.and_eq_true] at longs
  obtain ⟨mark1, mark2, mark3, hyst, tolerance⟩ := longs
  rw [encodeYard_words]
  simp only [decodeYard, two, List.cons_append, List.nil_append, List.take_succ_cons, List.take_zero, List.drop_succ_cons,
    List.drop_zero, yesNo_bit, join2_two mark1, join2_two mark2, join2_two mark3, join2_two hyst, join2_two tolerance,
    optionalWord_reads meter, optionalWord_reads aging]

/-- Settles O11: record by record; only the district, the yard and the draw record need what their words can carry. -/
theorem entryReadsBack : Obligations.EntryReadsBack := by
  refine ⟨fun r _ => decodeHolder_encodeHolder r, fun r _ => rfl, fun r fits => ?_, fun r _ => decodeBooster_encodeBooster r,
    fun r fits => ?_, fun r _ => rfl, fun r _ => decodePoll_encodePoll r, fun r _ => decodeDir_encodeDir r, fun r fits => ?_⟩
  · simp only [DistrictRec.wf, profileOk, Bool.and_eq_true, decide_eq_true_eq] at fits
    obtain ⟨⟨⟨⟨_, gain⟩, a, _⟩, b, _⟩, _⟩ := fits
    exact decodeDistrict_encodeDistrict r gain a b
  · simp only [YardRec.wf, Bool.and_eq_true] at fits
    obtain ⟨⟨⟨_, longs⟩, meter⟩, aging⟩ := fits
    exact decodeYard_encodeYard r longs meter aging
  · simp only [DrawRec.wf, Bool.and_eq_true, decide_eq_true_eq] at fits
    obtain ⟨⟨few, _⟩, _⟩ := fits
    exact decodeDraw_encodeDraw r few

/-! ### Requests in their words -/

theorem nats_map_wordOf {ns : List Nat} (fit : ∀ n ∈ ns, n < 65536) : nats (ns.map wordOf) = ns := by
  rw [nats, List.map_map]
  exact (List.map_congr_left fun n among => Nat.mod_eq_of_lt (fit n among)).trans (List.map_id ns)

theorem map_wordOf_nats (ws : List Word) : (nats ws).map wordOf = ws := by
  have reads : ∀ w : Word, wordOf w.toNat = w := fun w => by simp [wordOf]
  rw [nats, List.map_map]
  exact (List.map_congr_left fun w _ => reads w).trans (List.map_id ws)

theorem two_fits (n : Nat) : ∀ w ∈ two n, w < 65536 := by
  simp only [two, List.mem_cons, List.not_mem_nil, or_false, forall_eq_or_imp, forall_eq]
  omega

theorem bit_le (b : Bool) : bit b ≤ 1 := by cases b <;> decide

/-- The flags of a WRITE ENTRY part read back from their word. -/
theorem partWord_reads {p : Nat} (fits : p < 256) (final empty : Bool) :
    (p + 256 * bit final + 512 * bit empty) % 256 = p ∧ ((p + 256 * bit final + 512 * bit empty) / 256 % 2 == 1) = final
      ∧ ((p + 256 * bit final + 512 * bit empty) / 512 % 2 == 1) = empty ∧ p + 256 * bit final + 512 * bit empty < 1024 := by
  have one := bit_le final
  have two := bit_le empty
  have first : (p + 256 * bit final + 512 * bit empty) / 256 % 2 = bit final := by omega
  have second : (p + 256 * bit final + 512 * bit empty) / 512 % 2 = bit empty := by omega
  refine ⟨by omega, ?_, ?_, by omega⟩
  · rw [first]
    cases final <;> rfl
  · rw [second]
    cases empty <;> rfl

/-- The argument words of a well-formed request are words. -/
theorem requestArgs_fit {q : Request} (wf : q.wf = true) : ∀ n ∈ requestArgs q, n < 65536 := by
  cases q
  case writeEntry t i p final empty ws =>
    simp only [Request.wf, List.all_cons, List.all_nil, Bool.and_true, Bool.and_eq_true, decide_eq_true_eq, wordOk] at wf
    obtain ⟨⟨⟨table, index⟩, part⟩, _⟩ := wf
    have flags : p + 256 * bit final + 512 * bit empty < 65536 := by
      have := (partWord_reads part final empty).2.2.2
      omega
    simp only [requestArgs, List.cons_append, List.nil_append, List.mem_cons, forall_eq_or_imp]
    refine ⟨table, index, flags, ?_⟩
    simp only [nats, List.mem_map, forall_exists_index, and_imp, forall_apply_eq_imp_iff₂]
    exact fun w _ => w.isLt
  case setClock day second =>
    simp only [Request.wf, Bool.and_eq_true, wordOk, decide_eq_true_eq] at wf
    exact List.forall_mem_cons.2 ⟨wf.1, two_fits second⟩
  case releaseAccount n => exact two_fits n
  case loadRota ts =>
    simp only [Request.wf, Bool.and_eq_true, List.all_eq_true, wordOk, decide_eq_true_eq] at wf
    exact wf.2
  case setFlags codes => exact List.forall_mem_singleton.2 codes.isLt
  case storeTables skip => exact List.forall_mem_singleton.2 skip.isLt
  case run | hold | standby | restart | clear | tableCheck | startRota | stopRota | readBoosters => simp [requestArgs]
  all_goals simpa [requestArgs, Request.wf, wordOk] using wf

theorem nats_encodeAsk {q : Request} (wf : q.wf = true) : nats (encodeAsk q) = requestCode q :: requestArgs q := by
  have code : requestCode q < 65536 := by cases q <;> simp [requestCode]
  exact nats_map_wordOf (List.forall_mem_cons.2 ⟨code, requestArgs_fit wf⟩)

theorem encodeAsk_writeEntry (t i p : Nat) (final empty : Bool) (ws : List Word) :
    (encodeAsk (.writeEntry t i p final empty ws)).drop 4 = ws :=
  map_wordOf_nats ws

theorem decodeAsk_writeEntry {t i p : Nat} {final empty : Bool} {ws : List Word}
    (wf : (Request.writeEntry t i p final empty ws).wf = true) :
    decodeAsk (encodeAsk (.writeEntry t i p final empty ws)) = .ok (.writeEntry t i p final empty ws) := by
  have fits := wf
  simp only [Request.wf, Bool.and_eq_true, decide_eq_true_eq] at fits
  obtain ⟨⟨_, part⟩, few⟩ := fits
  obtain ⟨number, last, marked, below⟩ := partWord_reads part final empty
  have count : ¬ 31 < (t :: i :: (p + 256 * bit final + 512 * bit empty) :: nats ws).length := by
    simp only [List.length_cons, nats, List.length_map]
    omega
  have body := encodeAsk_writeEntry t i p final empty ws
  unfold decodeAsk
  rw [nats_encodeAsk wf]
  simp only [requestCode, requestArgs, List.cons_append, List.nil_append, if_true, if_neg count, if_neg (Nat.not_le.2 below), number, last,
    marked, body]

/-- The 24 turns of LOAD ROTA are read as they stand. -/
theorem decodeAsk_loadRota {ts : List Nat} (wf : (Request.loadRota ts).wf = true) :
    decodeAsk (encodeAsk (.loadRota ts)) = .ok (.loadRota ts) := by
  have fits := wf
  simp only [Request.wf, Bool.and_eq_true, beq_iff_eq] at fits
  obtain ⟨count, _⟩ := fits
  unfold decodeAsk
  rw [nats_encodeAsk wf]
  simp only [requestCode, requestArgs, argCount]
  rcases ts with _ | ⟨a, _ | ⟨b, _ | ⟨c, rest⟩⟩⟩
  iterate 3 simp at count
  · simp [count]

/-- Settles O10: the words of a request are its code and its arguments, which the form of its code reads again. -/
theorem askReadsBack : Obligations.AskReadsBack := by
  intro q wf
  cases q
  case writeEntry t i p final empty ws => exact decodeAsk_writeEntry wf
  case loadRota ts => exact decodeAsk_loadRota wf
  case setClock day second =>
    have long := wf
    simp only [Request.wf, Bool.and_eq_true] at long
    simp [decodeAsk, nats_encodeAsk wf, requestCode, requestArgs, argCount, fewWordRequest, two, join2_two long.2]
  case releaseAccount n =>
    have long : longOk n = true := wf
    simp [decodeAsk, nats_encodeAsk wf, requestCode, requestArgs, argCount, twoWordRequest, two, join2_two long]
  case setFlags codes | storeTables skip =>
    simp [decodeAsk, nats_encodeAsk wf, requestCode, requestArgs, argCount, oneWordRequest, wordOf]
  case run | hold | standby | restart | clear | tableCheck | startRota | stopRota | readBoosters =>
    simp [decodeAsk, nats_encodeAsk wf, requestCode, requestArgs, argCount, plainRequest]
  case readNotices | delete | readHolder | clearFault | readValve | setDrawMode | readDistrict | setPoolMode | freeBooster =>
    simp [decodeAsk, nats_encodeAsk wf, requestCode, requestArgs, argCount, oneWordRequest]
  case readCounts | watch | bar | unbar | setDistrictMode | readAccount =>
    simp [decodeAsk, nats_encodeAsk wf, requestCode, requestArgs, argCount, twoWordRequest]
  case readEntry | search =>
    simp [decodeAsk, nats_encodeAsk wf, requestCode, requestArgs, argCount, fewWordRequest]

/-! ### A repeated ASK -/

/-- Settles O19: the answer held is placed again, with the flags of this moment. -/
theorem repeatGetsTheHeldAnswer : Obligations.RepeatGetsTheHeldAnswer := by
  intro s h w ws a serves last rep tag request
  obtain ⟨⟨quiet, noErrors⟩, room⟩ := serves
  have held : s.heldAnswer h w.toNat = some a := by
    rw [State.heldAnswer, last]
    exact if_pos ⟨rep, tag, request⟩
  have served : s.deskServes = true := decide_eq_true room
  have again : s.serveAsk h (w :: ws) [] = { s with desk := placeAnswer a.tag a.result a.request a.reason a.data s.desk } := by
    rw [State.serveAsk, State.takeAsk, if_pos served, held]
  have placed : placeAnswer a.tag a.result a.request a.reason a.data s.desk = { s.desk with
      tx := s.desk.tx ++ [.answer a.tag a.result a.request (flagsWord (!s.desk.notices.isEmpty) s.desk.overrun) a.reason a.data]
      overrun := false } := if_pos room
  have taken : exec (.askRepeat h (w :: ws)) s = finish (s.serveAsk h (w :: ws) []) :=
    afterReads_quiet (fun u => u.serveAsk h (w :: ws) []) noErrors
  rw [taken, again, placed]
  exact finish_nil _ quiet

/-! ### HOLD and STANDBY -/

theorem exec_hold {s : State} {h : AskHead} (t : Takes s h 4) : exec (.hold h) s = finish (s.doHold h.tag) := afterReads_takeAsk t _

theorem exec_standby {s : State} {h : AskHead} (t : Takes s h 5) : exec (.standby h) s = finish (s.doStandby h.tag) :=
  afterReads_takeAsk t _

/-- HOLD taken from RUN: the stops due are plain work, and then the answer. -/
theorem hold_enters {s : State} {h : AskHead} (t : Takes s h 4) (running : s.runState = .run) :
    ∃ u, exec (.hold h) s = .next u ∧ Answered ({ s.cancelAutoRun with runState := .hold } : State) u h 4 .done none (.words [2]) := by
  have acts : s.running = true := by simp [State.running, running]
  have quiet : s.cancelAutoRun.handoffs = [] := quiet_of_takes t
  rw [exec_hold t, State.doHold, if_pos acts]
  obtain ⟨u, e, calm, answers⟩ := finish_lastRunState
    (s := ({ s.cancelAutoRun with runState := .hold } : State).hand [.stopsDue, .replyRunState h.tag 4 .done none []])
    [.stopsDue] h 4 .done none [] (by simp [quiet]) (by simp [plain])
  exact ⟨u, e, calm, answers⟩

/-- Settles O31: HOLD from RUN and from elsewhere, and STANDBY. -/
theorem holdAndStandbyAreEntered : Obligations.HoldAndStandbyAreEntered := by
  intro s h
  refine ⟨fun t running => ?_, fun t out => ?_, fun t => ?_⟩
  · obtain ⟨u, e, calm, answers⟩ := hold_enters t running
    have records := SameRecords.of_calm calm
    have samples := SameSamples.of_calm calm
    exact ⟨u, e, congrArg Calm.runState calm, .of_calm calm, records, samples, answers⟩
  · rw [exec_hold t, State.doHold, if_neg (running_out out)]
    exact finish_replyRunState s.cancelAutoRun h 4 .badState none [] (quiet_of_takes t) (room_of_takes t)
  · rw [exec_standby t]
    exact finish_replyRunState _ h 5 .done none [] (quiet_of_takes t) (room_of_takes t)

/-! ### SET FLAGS -/

theorem exec_setFlags {s : State} {h : AskHead} {codes : Word} (t : Takes s h 8) :
    exec (.setFlags h codes) s = finish (s.doSetFlags h.tag codes) := afterReads_takeAsk t _

/-- Plain hand-offs and then the answer that gives the flags. -/
theorem finish_lastFlags {s : State} {tag : Nat} (hs : List Handoff) (e : s.handoffs = hs ++ [.replyFlags tag]) (p : Plain hs) :
    ∃ t, finish s = .next t ∧ t.calm = s.calm := by
  obtain ⟨calm, _⟩ := settle_last Config.handoffBound s hs _ e p (fun _ => rfl) (fun t => State.giveAnswer_calm t _ _ _ _ _)
  exact ⟨_, rfl, calm⟩

theorem getLsbD_of_low {x y : BitVec 8} (e : x &&& 0x3F#8 = y &&& 0x3F#8) {i : Nat} (low : i < 6) : x.getLsbD i = y.getLsbD i := by
  have mask : (0x3F#8).getLsbD i = true := by
    revert low
    revert i
    decide
  have bit := congrArg (·.getLsbD i) e
  simpa only [BitVec.getLsbD_and, mask, Bool.and_true] using bit

/-- The districts whose flags changed have their targets evaluated anew, which is plain work. -/
theorem setFlags_applies {s : State} {h : AskHead} (codes : Word) (t : Takes s h 8) :
    ∃ u, exec (.setFlags h codes) s = .next u ∧ u.calm = ({ s with flags := applyFlags codes s.flags } : State).calm := by
  rw [exec_setFlags t, State.doSetFlags]
  obtain ⟨u, e, calm⟩ := finish_lastFlags (tag := h.tag)
    (s := ({ s with flags := applyFlags codes s.flags } : State).hand
      (((s.districts.filter fun p => flagNamed s.flags (applyFlags codes s.flags) p.2).map fun p => .target p.1) ++ [.replyFlags h.tag]))
    ((s.districts.filter fun p => flagNamed s.flags (applyFlags codes s.flags) p.2).map fun p => .target p.1)
    (by simp [quiet_of_takes t]) (by simp [plain])
  exact ⟨u, e, calm⟩

/-- Settles O34: the codes flag by flag; the targets of the districts that follow a changed flag are plain work. -/
theorem setFlagsAppliesTheCodes : Obligations.SetFlagsAppliesTheCodes := by
  refine ⟨fun fs codes => ⟨fun i low => ?_, applyFlags_getLsbD codes fs 6 (by decide), applyFlags_getLsbD codes fs 7 (by decide)⟩,
    fun s h codes t => ⟨?_, fun unnamed => ?_⟩⟩
  · rw [applyFlags_getLsbD codes fs i (by omega), if_pos low]
    rfl
  · obtain ⟨u, e, calm⟩ := setFlags_applies codes t
    have records := SameRecords.of_calm calm
    have samples := SameSamples.of_calm calm
    have flags : u.flags &&& 0x3F#8 = applyFlags codes s.flags &&& 0x3F#8 := congrArg Calm.lowFlags calm
    exact ⟨u, e, fun i low => getLsbD_of_low flags low, .of_calm calm, records, samples⟩
  · have nobody : (s.districts.filter fun p => flagNamed s.flags (applyFlags codes s.flags) p.2) = [] := by
      simpa [List.filter_eq_nil_iff] using unnamed
    rw [exec_setFlags t, State.doSetFlags]
    dsimp only
    rw [nobody]
    exact finish_replyFlags { s with flags := applyFlags codes s.flags } h (quiet_of_takes t) (room_of_takes t)

/-! ### READ NOTICES -/

theorem exec_readNotices {s : State} {h : AskHead} {count : Nat} (t : Takes s h 9) :
    exec (.readNotices h count) s = finish (s.doReadNotices h.tag count) := afterReads_takeAsk t _

theorem detailWords_length (d : Detail) : (detailWords d).length = 2 := by cases d <;> rfl

theorem noticeWords_length (n : Notice) : (noticeWords n).length = 7 := by
  simp [noticeWords, two, detailWords_length]

/-- A notice placed in the transmit queue or dropped there is in the notice queue all the same. -/
theorem placeOther_notices (o : DeskOut) (d : Desk) : (placeOther o d).notices = d.notices := by
  unfold placeOther
  split
  · rfl
  · rfl

/-- Settles O35: the counts refused, the empty queue, and the oldest notices taken. -/
theorem readNoticesTakesTheOldest : Obligations.ReadNoticesTakesTheOldest := by
  refine ⟨fun s h count t => ⟨fun out => ?_, fun low high empty => ?_, fun low high held => ?_⟩, noticeWords_length,
    fun s k sub det room => ?_⟩
  · have refused : (!inRange 1 4 count) = true := by
      simp only [inRange, Bool.not_eq_true', decide_eq_false_iff_not]
      omega
    rw [exec_readNotices t, State.doReadNotices, if_pos refused, finish_bad t]
  · have inside : ¬ (!inRange 1 4 count) = true := by simp [inRange, low, high]
    rw [exec_readNotices t, State.doReadNotices, if_neg inside, if_pos (List.isEmpty_iff.2 empty), finish_words t]
  · have inside : ¬ (!inRange 1 4 count) = true := by simp [inRange, low, high]
    rw [exec_readNotices t, State.doReadNotices, if_neg inside, if_neg (mt List.isEmpty_iff.1 held), ← List.length_take]
    exact finish_reply _ h 9 .done none _ (quiet_of_takes t) (room_of_takes t)
  · have kept : ¬ Config.noticeCap ≤ s.desk.notices.length := Nat.not_le.2 room
    simp only [State.notify, addNotice, placeOther_notices, if_neg kept]

/-! ### READ COUNTS -/

theorem exec_readCounts {s : State} {h : AskHead} {group clear : Nat} (t : Takes s h 10) :
    exec (.readCounts h group clear) s = finish (s.doReadCounts h.tag group clear) := afterReads_takeAsk t _

theorem readCounts_gives {s : State} {h : AskHead} {group : Nat} (t : Takes s h 10) (known : group ≤ 4) :
    exec (.readCounts h group 0) s = .next (s.answered h 10 .done none (.words (s.countsOf group))) := by
  rw [exec_readCounts t, State.doReadCounts, if_neg (Nat.not_lt.2 known), if_neg (by decide), if_neg (by decide), finish_words t]

/-- With the clear mark the counters are given as they were, and are 0 afterwards. -/
theorem readCounts_clears {s : State} {h : AskHead} {group : Nat} (t : Takes s h 10) (known : group ≤ 4)
    (quiet : (s.clearCounts group).handoffs = []) (room : (s.clearCounts group).desk.tx.length < Config.deskTxCap) :
    exec (.readCounts h group 1) s = .next ((s.clearCounts group).answered h 10 .done none (.words (s.countsOf group))) := by
  rw [exec_readCounts t, State.doReadCounts, if_neg (Nat.not_lt.2 known), if_neg (by decide), if_pos rfl]
  exact finish_reply _ h 10 .done none _ quiet room

theorem countsOf_line (s : State) (l : FLine) : s.countsOf (lineNum l) = counterWords (s.line l).counters := by cases l <;> rfl

theorem clearCounts_line (s : State) (l : FLine) :
    s.clearCounts (lineNum l) = s.setLine l { s.line l with counters := Counters.zero } := by cases l <;> rfl

/-- Settles O36: the group and the mark refused, and the counters of the desk line, of a field line and of the part. -/
theorem readCountsGivesAndClears : Obligations.ReadCountsGivesAndClears := by
  intro s h group clear t
  have quiet := quiet_of_takes t
  have room := room_of_takes t
  refine ⟨fun unknown => ?_, fun known mark => ?_, readCounts_gives t (by decide), readCounts_clears t (by decide) quiet room,
    fun l => ?_, readCounts_gives t (by decide), readCounts_clears t (by decide) quiet room⟩
  · rw [exec_readCounts t, State.doReadCounts, if_pos unknown, finish_bad t]
  · rw [exec_readCounts t, State.doReadCounts, if_neg (Nat.not_lt.2 known), if_pos mark, finish_bad t]
  · have known : lineNum l ≤ 4 := by cases l <;> decide
    have kept : (s.clearCounts (lineNum l)).handoffs = [] ∧ (s.clearCounts (lineNum l)).desk.tx.length < Config.deskTxCap := by
      cases l <;> exact ⟨quiet, room⟩
    rw [← countsOf_line, ← clearCounts_line]
    exact ⟨readCounts_gives t known, readCounts_clears t known kept.1 kept.2⟩

/-! ### A part of WRITE ENTRY -/

theorem exec_writeEntryPart {s : State} {h : AskHead} {table index part : Nat} {empty : Bool} {ws : List Word} (t : Takes s h 2) :
    exec (.writeEntryPart h table index part empty ws) s = finish (s.doWriteEntry h.tag table index part false empty ws) :=
  afterReads_takeAsk t _

/-- An EMPTY mark without the final mark is ignored at a holder, valve, district or booster record. -/
theorem emptyActs_ignored {table index part : Nat} {empty : Bool} (examined : writeRefusal table index part = none)
    (ignored : empty = false ∨ table ≤ 4) : emptyActs table part false empty = false := by
  rcases ignored with rfl | record
  · rfl
  · have named : table ≠ 0 := by
      rintro rfl
      cases examined
    simp only [emptyActs, Bool.and_false, Bool.or_false, Bool.and_eq_false_iff, Bool.not_eq_false', List.contains_eq_mem,
      List.mem_cons, List.not_mem_nil, or_false, decide_eq_true_eq]
    omega

theorem emptyActs_elsewhere {table : Nat} (part : Nat) (elsewhere : 4 < table) : emptyActs table part false true = true := by
  simp only [emptyActs, Bool.true_and, Bool.and_false, Bool.or_false, Bool.not_eq_true', List.contains_eq_mem, List.mem_cons,
    List.not_mem_nil, or_false, decide_eq_false_iff_not]
  omega

/-- At an entry that is neither a poll list position nor a record, EMPTY is BAD at the word that holds the mark. -/
theorem removeEntryOf_bad (s : State) (tag index : Nat) {table : Nat} (elsewhere : 4 < table) (notPoll : table ≠ 9) :
    s.removeEntryOf tag table index = s.bad tag 2 4 := by
  unfold State.removeEntryOf
  split
  iterate 4 exact absurd elsewhere (by decide)
  · exact absurd rfl notPoll
  · rfl

theorem doWriteEntry_begins {s : State} {table index : Nat} {empty : Bool} {ws : List Word} (tag : Nat)
    (examined : writeRefusal table index 0 = none) :
    s.doWriteEntry tag table index 0 false empty ws = s.unstaged.acceptPart tag table index 0 false empty [] ws := by
  rw [State.doWriteEntry, examined]
  rfl

theorem doWriteEntry_continues {s : State} {table index part : Nat} {empty : Bool} {ws : List Word} {g : Staged} (tag : Nat)
    (examined : writeRefusal table index part = none) (later : part ≠ 0) (staged : s.desk.staged = some g)
    (expected : g.table = table ∧ g.index = index ∧ g.next = part) :
    s.doWriteEntry tag table index part false empty ws = s.acceptPart tag table index part false empty g.words ws := by
  rw [State.doWriteEntry, examined]
  dsimp only
  rw [if_neg later, staged]
  exact if_pos expected

/-- A part accepted is staged behind the words before it. -/
theorem finish_staged {s : State} {h : AskHead} {table index part : Nat} {empty : Bool} (before ws : List Word)
    (quiet : s.handoffs = []) (room : s.desk.tx.length < Config.deskTxCap) (examined : writeRefusal table index part = none)
    (ignored : empty = false ∨ table ≤ 4) :
    finish (s.acceptPart h.tag table index part false empty before ws)
      = .next ((s.setStaged (some ⟨table, index, before ++ ws, part + 1⟩)).answered h 2 .done none (.words [part + 1])) := by
  rw [State.acceptPart, if_neg (by simp [emptyActs_ignored examined ignored]), if_neg (by decide)]
  exact finish_reply _ h 2 .done none _ quiet room

/-- Every part accepted at such an entry with the mark is an emptying, whatever was staged before it. -/
theorem acceptPart_empties (s : State) (tag index part : Nat) {table : Nat} (before ws : List Word) (elsewhere : 4 < table) :
    s.acceptPart tag table index part false true before ws = s.unstaged.removeEntryOf tag table index :=
  if_pos (emptyActs_elsewhere part elsewhere)

theorem doWriteEntry_empties {s : State} {table index part : Nat} {ws : List Word} (tag : Nat)
    (examined : writeRefusal table index part = none) (elsewhere : 4 < table)
    (expected : part = 0 ∨ ∃ g, s.desk.staged = some g ∧ g.table = table ∧ g.index = index ∧ g.next = part) :
    s.doWriteEntry tag table index part false true ws = s.unstaged.removeEntryOf tag table index := by
  by_cases first : part = 0
  · subst first
    rw [doWriteEntry_begins tag examined, acceptPart_empties _ _ _ _ _ _ elsewhere]
    rfl
  · obtain ⟨g, staged, next⟩ := expected.resolve_left first
    rw [doWriteEntry_continues tag examined first staged next, acceptPart_empties _ _ _ _ _ _ elsewhere]

theorem doWriteEntry_unexpected {s : State} {table index part : Nat} {empty : Bool} {ws : List Word} {g : Staged} (tag : Nat)
    (examined : writeRefusal table index part = none) (later : part ≠ 0) (staged : s.desk.staged = some g)
    (unexpected : ¬ (g.table = table ∧ g.index = index ∧ g.next = part)) :
    s.doWriteEntry tag table index part false empty ws = s.unstaged.reply tag 2 .badState [] := by
  rw [State.doWriteEntry, examined]
  dsimp only
  rw [if_neg later, staged]
  exact if_neg unexpected

theorem doWriteEntry_unbegun {s : State} {table index part : Nat} {empty : Bool} {ws : List Word} (tag : Nat)
    (examined : writeRefusal table index part = none) (later : part ≠ 0) (staged : s.desk.staged = none) :
    s.doWriteEntry tag table index part false empty ws = s.reply tag 2 .badState [] := by
  rw [State.doWriteEntry, examined]
  dsimp only
  rw [if_neg later, staged]

/-- Settles O22: the part refused, begun, continued, the emptying, and the part out of its turn. -/
theorem entryPartIsStaged : Obligations.EntryPartIsStaged := by
  intro s h table index part empty ws t
  have quiet := quiet_of_takes t
  have room := room_of_takes t
  rw [exec_writeEntryPart t]
  refine ⟨fun p refused => ?_, fun examined first ignored => ?_, fun g examined later staged sameTable sameIndex next ignored => ?_,
    fun examined mark elsewhere expected => ?_, fun g examined later staged unexpected => ?_, fun examined later staged => ?_⟩
  · rw [State.doWriteEntry, refused, finish_bad t]
  · subst first
    rw [doWriteEntry_begins _ examined]
    exact finish_staged [] ws quiet room examined ignored
  · rw [doWriteEntry_continues _ examined later staged ⟨sameTable, sameIndex, next⟩]
    exact finish_staged g.words ws quiet room examined ignored
  · subst mark
    rw [doWriteEntry_empties _ examined elsewhere expected]
    refine ⟨fun notPoll => ?_, fun poll idle => ?_⟩
    · rw [removeEntryOf_bad _ _ _ elsewhere notPoll]
      exact finish_reply s.unstaged h 2 .bad none _ quiet room
    · subst poll
      exact finish_taken_alone h quiet room idle
  · rw [doWriteEntry_unexpected _ examined later staged unexpected, finish_unstaged_reply t]
  · rw [doWriteEntry_unbegun _ examined later staged, finish_words t]

/-! ### READ ENTRY -/

theorem exec_readEntry {s : State} {h : AskHead} {table index part : Nat} {fs : Findings} (t : Takes s h 1) :
    exec (.readEntry h table index part fs) s = finish (s.doReadEntry h.tag table index part fs) := afterReads_takeAsk t _

theorem readRecords_noFinding (s : State) (rs : List RecordRef) : s.readRecords [] rs = (s, 0, 0) := by
  have passed : ∀ acc r, State.readRecord [] acc r = acc := by
    intro acc r
    unfold State.readRecord
    split
    · rfl
    · rfl
  unfold State.readRecords
  induction rs with
  | nil => rfl
  | cons r rs ih => rw [List.foldl_cons, passed, ih]

/-- The state after the reads of the records that an entry's words come from. -/
def entryRead (s : State) (table index : Nat) (fs : Findings) : State :=
  (s.readRecords fs ((s.entryRecords table index).filter s.guarded.contains)).1

theorem entryRead_noFinding (s : State) (table index : Nat) : entryRead s table index [] = s := by
  rw [entryRead, readRecords_noFinding]

/-- A part of an entry held: its words, or BAD at a part that the entry does not have. -/
theorem readEntry_held {s u : State} {h : AskHead} {table index part : Nat} {fs : Findings} {ws : List Nat}
    (known : indexOk table index = some true) (few : part ≤ 3) (read : entryRead s table index fs = u)
    (quiet : u.handoffs = []) (room : u.desk.tx.length < Config.deskTxCap) (words : u.entryWords table index = some ws) :
    finish (s.doReadEntry h.tag table index part fs) = .next (if partCount ws ≤ part then u.answered h 1 .bad none (.words [4])
      else u.answered h 1 .done none (.words ((part * 256 + partCount ws) :: (ws.drop (28 * part)).take 28))) := by
  rw [State.doReadEntry, known]
  dsimp only
  rw [if_neg (Nat.not_lt.2 few), ← entryRead, read, words]
  dsimp only
  split
  · exact finish_reply u h 1 .bad none _ quiet room
  · exact finish_reply u h 1 .done none _ quiet room

theorem readEntry_absent {s : State} {h : AskHead} {table index part : Nat} (t : Takes s h 1) (known : indexOk table index = some true)
    (few : part ≤ 3) (absent : s.entryWords table index = none) :
    finish (s.doReadEntry h.tag table index part []) = .next (s.answered h 1 .notFound none (.words [])) := by
  rw [State.doReadEntry, known]
  dsimp only
  rw [if_neg (Nat.not_lt.2 few), ← entryRead, entryRead_noFinding, absent, finish_words t]

/-! ### A meter entry read with an error -/

theorem meterWords_length (m : Meter) : (meterWords m).length = 16 := by
  cases hm : m.last <;> simp [meterWords, optWords, two, three, hm]

/-- A meter entry is one part. -/
theorem meterWords_part (m : Meter) : partCount (meterWords m) = 1 ∧ ((meterWords m).drop (28 * 0)).take 28 = meterWords m := by
  refine ⟨by rw [partCount, meterWords_length]; rfl, ?_⟩
  rw [Nat.mul_zero, List.drop_zero, List.take_of_length_le (by rw [meterWords_length]; decide)]

theorem meter_guarded (s : State) {n : Nat} (known : n ≤ 8) : s.guarded.contains (.meter n) = true := by
  have among : RecordRef.meter n ∈ (List.range 9).map RecordRef.meter := List.mem_map_of_mem (List.mem_range.2 (Nat.lt_succ_of_le known))
  rw [List.contains_eq_mem, decide_eq_true_eq]
  simp only [State.guarded, List.mem_append, among, true_or, or_true]

theorem entryRead_meter {s : State} {n : Nat} {f : Flip} (known : n ≤ 8) (whole : (s.meter n).damaged = false) :
    entryRead s 5 n [(.meter n, f)] = match f with
      | .single => s.corrected
      | .double => s.recordDamaged (.meter n) := by
  have own : (s.entryRecords 5 n).filter s.guarded.contains = [.meter n] := List.filter_cons_of_pos (meter_guarded s known)
  have undamaged : s.isDamaged (.meter n) = false := whole
  have found : findingOf [(.meter n, f)] (.meter n) = some f := by simp [findingOf]
  rw [entryRead, own, State.readRecords, List.foldl_cons, List.foldl_nil, State.readRecord, found, if_neg (by simp [undamaged])]
  cases f <;> rfl

/-- A meter entry read with an error is given as it is once the error has been acted on. -/
theorem readMeter_found {s u : State} {h : AskHead} {n : Nat} {f : Flip} {m : Meter} (t : Takes s h 1) (known : n ≤ 8)
    (read : entryRead s 5 n [(.meter n, f)] = u) (held : u.meter n = m) (quiet : u.handoffs = [])
    (room : u.desk.tx.length < Config.deskTxCap) :
    exec (.readEntry h 5 n 0 [(.meter n, f)]) s = .next (u.answered h 1 .done none (.words (1 :: meterWords m))) := by
  subst held
  obtain ⟨one, all⟩ := meterWords_part (u.meter n)
  have index : indexOk 5 n = some true := by simp [indexOk, inRange, known]
  rw [exec_readEntry t, readEntry_held (ws := meterWords (u.meter n)) index (Nat.zero_le _) read quiet room rfl, one, all,
    if_neg (by decide)]

theorem corrected_counted {s : State} (few : s.mem.tracking < 254) :
    s.corrected = { s with mem := { s.mem with tracking := s.mem.tracking + 1 } } := by
  have counted : satAdd Config.trackingMax s.mem.tracking 1 = s.mem.tracking + 1 := Nat.min_eq_right (by simp [Config.trackingMax]; omega)
  have below : ¬ s.mem.tracking + 1 = Config.trackingMax := by simp [Config.trackingMax]; omega
  rw [State.corrected, counted]
  exact if_neg below

/-- A notice raised leaves room for an answer, whose places are kept for it (07 R150). -/
theorem room_of_notify {s : State} (k : NoticeKind) (sub : Subject) (det : Detail) (room : s.desk.tx.length < Config.deskTxCap) :
    (s.notify k sub det).desk.tx.length < Config.deskTxCap := by
  unfold State.notify addNotice placeOther
  dsimp only
  split
  · next few =>
    rw [List.length_append]
    exact Nat.lt_trans (Nat.add_lt_add_right few 1) (by decide)
  · exact room

theorem meter_notify_setMeter (s : State) (n : Nat) (m : Meter) (k : NoticeKind) (sub : Subject) (det : Detail) :
    ((s.setMeter n m).notify k sub det).meter n = m := by
  show (s.setMeter n m).meter n = m
  rw [State.meter_setMeter, if_pos rfl]

/-- A meter entry damaged is marked, noticed, and has carry pending (06 R124, 11 R209). -/
theorem recordDamaged_meter (s : State) (n : Nat) :
    s.recordDamaged (.meter n)
      = (s.setMeter n { s.meter n with damaged := true, carry := true }).notify .recordDamaged .none (.pair 5 n) := by
  have marked := meter_notify_setMeter s n { s.meter n with damaged := true } .recordDamaged .none (.pair 5 n)
  refine (congrArg (fun m : Meter => State.setMeter _ n { m with carry := true }) marked).trans ?_
  exact congrArg (State.notify · .recordDamaged .none (.pair 5 n)) (State.setMeter_setMeter s n _ _)

theorem partCount_eq (ws : List Nat) : partCount ws = max 1 ((ws.length + 27) / 28) := rfl

/-- Settles O21: the words out of range, the entry not held, the part given, and a meter entry with either error. -/
theorem readEntryGivesThePart : Obligations.ReadEntryGivesThePart := by
  intro s h table index part t
  have quiet : s.handoffs = [] := quiet_of_takes t
  refine ⟨fun unknown => ?_, fun outside => ?_, fun known many => ?_, fun known few absent => ?_, fun ws known few held => ?_,
    fun n known whole few => ?_, fun n known whole => ?_⟩
  · rw [exec_readEntry t, State.doReadEntry, unknown, finish_bad t]
  · rw [exec_readEntry t, State.doReadEntry, outside, finish_bad t]
  · rw [exec_readEntry t, State.doReadEntry, known]
    dsimp only
    rw [if_pos many, finish_bad t]
  · rw [exec_readEntry t, readEntry_absent t known few absent]
  · rw [exec_readEntry t, readEntry_held known few (entryRead_noFinding s table index) (quiet_of_takes t) (room_of_takes t) held,
      partCount_eq]
  · exact readMeter_found t known ((entryRead_meter known whole).trans (corrected_counted few)) rfl quiet (room_of_takes t)
  · exact readMeter_found t known ((entryRead_meter known whole).trans (recordDamaged_meter s n)) (meter_notify_setMeter s n _ _ _ _)
      quiet (room_of_notify _ _ _ (room_of_takes t))

end Sys2Proof.RunStateProofs
end

section
/-! Proofs of the family of the table memory and the store: the step on an empty queue (log entries 4, 10), STORE TABLES and the
blocks of a store write (11 R211), and what stands against the statement of the table check (11 R208-R210). -/

namespace Sys2Proof.StoreProofs

open Sys2Proof Sys2Proof.Machine Sys2Proof.DistrictProofs Sys2Proof.AccountProofs Sys2Proof.DirectoryProofs Sys2Proof.PollProofs
  Sys2Proof.RunStateProofs

/-! ### The step -/

theorem step_command {s : State} {c : Instr} {rest : List Instr} (waiting : s.pending = c :: rest) :
    step s = exec c { s with pending := rest } := by
  rw [step, waiting]

theorem step_idle {s : State} (empty : s.pending = []) : step s = finish s.meetErrors := by
  rw [step, empty]

theorem meetErrors_none {s : State} (none : s.mem.met = []) : s.meetErrors = s := by
  have same : ({ s.mem with met := [] } : TableMem) = s.mem := by rw [← none]
  rw [State.meetErrors, none, List.foldl_nil, State.modMem, same]

theorem meetErrors_one {s : State} {e : Met} (one : s.mem.met = [e]) :
    s.meetErrors = ({ s with mem := { s.mem with met := [] } } : State).errorFound e := by
  rw [State.meetErrors, one, List.foldl_cons, List.foldl_nil, State.modMem]

/-- Settles O1: the command at the front, the idle step, and the one error that a step's reads meet. -/
theorem stepTakesTheFrontCommand : Obligations.StepTakesTheFrontCommand := by
  refine ⟨fun c rest s waiting => step_command waiting, fun s empty settled => ?_, fun s e empty one => ?_⟩
  · obtain ⟨quiet, noErrors⟩ := settled
    rw [step_idle empty, meetErrors_none noErrors, finish_nil s quiet]
  · rw [step_idle empty, meetErrors_one one, finish]

/-! ### STORE TABLES -/

theorem exec_storeTables {s : State} {h : AskHead} {skip : Word} {fs : Findings} (t : Takes s h 16) :
    exec (.storeTables h skip fs) s = finish (s.doStoreTables h.tag skip fs) := afterReads_takeAsk t _

/-- STORE TABLES whose snapshot meets no error: the skip set refused, a store write running, or the write begun at its first
block. -/
theorem doStoreTables_noFinding (s : State) (tag : Nat) (skip : Word) :
    s.doStoreTables tag skip [] = if skipOk skip = false then s.bad tag 16 2
      else if s.mem.writing.isSome then s.reply tag 16 .busy []
      else ({ s with mem := { s.mem with writing := some ⟨s.snapshot skip, 0, false⟩ } } : State).reply tag 16 .started [] := by
  rw [State.doStoreTables, readRecords_noFinding]
  cases skipOk skip <;> rfl

/-! ### Blocks written -/

theorem nextBlock_eq (s : State) (rest : List Block) (k : Nat) :
    s.nextBlock rest k
      = if rest = [] then ({ s with mem := { s.mem with writing := none } } : State).notify .storeDone .none (.one (k : Int))
        else { s with mem := { s.mem with writing := some ⟨rest, k, false⟩ } } := by
  cases rest <;> rfl

theorem nextBlock_handoffs (s : State) (rest : List Block) (k : Nat) : (s.nextBlock rest k).handoffs = s.handoffs := by
  unfold State.nextBlock
  split <;> rfl

theorem blockWritten_handoffs (s : State) (w : StoreWrite) (good : Bool) : (s.blockWritten w good).handoffs = s.handoffs := by
  unfold State.blockWritten
  split
  · exact nextBlock_handoffs _ _ _
  · dsimp only
    split
    · exact nextBlock_handoffs _ _ _
    · split
      · exact nextBlock_handoffs _ _ _
      · rfl

theorem exec_storeBlockWritten {s : State} (noErrors : s.mem.met = []) (good : Bool) :
    exec (.storeBlockWritten good) s = finish (s.mem.writing.elim s fun w => s.blockWritten w good) := by
  have command : exec (.storeBlockWritten good) s = execStoreBlockWritten good s := rfl
  rw [command, execStoreBlockWritten, afterReads_quiet _ noErrors]
  cases s.mem.writing <;> rfl

theorem exec_storeBlockWritten_idle {s : State} (settled : Settled s) (idle : s.mem.writing = none) (good : Bool) :
    exec (.storeBlockWritten good) s = .next s := by
  obtain ⟨quiet, noErrors⟩ := settled
  rw [exec_storeBlockWritten noErrors, idle]
  exact finish_nil s quiet

theorem exec_storeBlockWritten_writing {s : State} {w : StoreWrite} (settled : Settled s) (writing : s.mem.writing = some w) (good : Bool) :
    exec (.storeBlockWritten good) s = .next (s.blockWritten w good) := by
  obtain ⟨quiet, noErrors⟩ := settled
  rw [exec_storeBlockWritten noErrors, writing]
  exact finish_nil _ ((blockWritten_handoffs s w good).trans quiet)

/-- The block stands in the store, and the write goes on as `w` says. -/
def blockPut (s : State) (b : Block) (good : Bool) (w : Option StoreWrite) : State :=
  { s with mem := { s.mem with store := putBlock s.mem.store { b with good := good }, writing := w } }

/-- A block read back good is counted, and the write goes on to the next block or ends. -/
theorem blockWritten_good (s : State) (b : Block) (rest : List Block) (k : Nat) (again : Bool) :
    s.blockWritten ⟨b :: rest, k, again⟩ true
      = if rest = [] then (blockPut s b true none).notify .storeDone .none (.one ((k + 1 : Nat) : Int))
        else blockPut s b true (some ⟨rest, k + 1, false⟩) :=
  nextBlock_eq _ rest (k + 1)

/-- A block that fails its check word is written once more, and then left as not written. -/
theorem blockWritten_bad (s : State) (b : Block) (rest : List Block) (k : Nat) (again : Bool) :
    s.blockWritten ⟨b :: rest, k, again⟩ false
      = if again = false then blockPut s b false (some ⟨b :: rest, k, true⟩)
        else if rest = [] then (blockPut s b false none).notify .storeDone .none (.one (k : Int))
        else blockPut s b false (some ⟨rest, k, false⟩) := by
  cases again with
  | false => rfl
  | true => exact nextBlock_eq _ rest k

/-- Settles O40: the request refused, busy and taken; a block's end with no write under way; and a block good, bad and bad again. -/
theorem storeWriteRunsBlockByBlock : Obligations.StoreWriteRunsBlockByBlock := by
  refine ⟨fun s h skip t => ⟨fun unknown => ?_, fun w known writing => ?_, fun known idle => ?_⟩,
    fun s good settled idle => exec_storeBlockWritten_idle settled idle good, fun s b rest k again settled writing => ⟨?_, ?_⟩⟩
  · rw [exec_storeTables t, doStoreTables_noFinding, if_pos unknown, finish_bad t]
  · rw [exec_storeTables t, doStoreTables_noFinding, if_neg (by simp [known]), writing, if_pos Option.isSome_some, finish_words t]
  · rw [exec_storeTables t, doStoreTables_noFinding, if_neg (by simp [known]), idle, if_neg (by decide)]
    exact finish_reply _ h 16 .started none _ (quiet_of_takes t) (room_of_takes t)
  · rw [exec_storeBlockWritten_writing settled writing, blockWritten_good]
    rfl
  · rw [exec_storeBlockWritten_writing settled writing, blockWritten_bad]
    rfl

/-! ### A directory entry damaged -/

/-- In a canonical table a number written and then removed is a number removed. -/
theorem tblDel_tblPut {α : Type} {t : Tbl α} (wf : tblWf t = true) {n : Nat} {a : α} (b : α) (held : tblGet t n = some a) :
    tblDel (tblPut t n b) n = tblDel t n := by
  induction t with
  | nil => cases held
  | cons p r ih =>
    obtain ⟨k, c⟩ := p
    obtain ⟨above, wf⟩ := tblWf_cons.1 wf
    by_cases same : k = n
    · subst same
      simp [tblPut, tblDel]
    · have later : tblGet r n = some a := by simpa [tblGet, same] using held
      have rising : ¬ n < k := Nat.not_lt.2 (Nat.le_of_lt (above _ (mem_of_tblGet later)))
      simp [tblPut, tblDel, rising, same, Ne.symm same, ih wf later]

/-- The entry's end that 11 Table 11.1 gives, where the directory is in its canonical form. -/
theorem recordDamaged_directory_unbound {s : State} {station : Nat} {e : DirEntry} (wf : tblWf s.dir = true)
    (held : s.entry station = some e) (other : e.kind ≠ .bound) :
    s.recordDamaged (.directory station)
      = ({ s with dir := tblDel s.dir station } : State).notify .recordDamaged .none (.pair 11 station) := by
  have marked : s.markDamaged (.directory station) = s.setEntry station { e with damaged := true } := by
    rw [State.markDamaged, State.modEntry, held]
  have there : ((s.setEntry station { e with damaged := true }).notify .recordDamaged .none (.pair 11 station)).entry station
      = some { e with damaged := true } := tblGet_tblPut_self _ _ _
  have gone : tblDel (tblPut s.dir station { e with damaged := true }) station = tblDel s.dir station :=
    tblDel_tblPut wf _ held
  rw [State.recordDamaged, marked, State.damageActs, State.entryDamage]
  dsimp only [recordName]
  rw [there]
  dsimp only
  rw [if_neg other, State.removeEntry]
  simp only [State.notify_dir, State.setEntry_dir, gone]
  rfl

/-- A directory out of its canonical form: station 3 stands behind station 5. -/
def outOfOrder : State :=
  { State.reset with dir := [(5, freshEntry none .learned none true 0#12), (3, freshEntry none .learned none true 0#12)] }

/-- Refutes O39: its clause on a directory entry that is not BOUND asks nothing of the directory's form. Where station 3 stands
behind station 5, the damage mark is written in front of station 5 and goes with the removal, so that the entry itself stays. -/
theorem not_tableCheckSweeps : ¬ Obligations.TableCheckSweeps := by
  rintro ⟨-, -, -, -, -, -, -, -, -, -, directory, -⟩
  have claimed := (directory outOfOrder 3 (freshEntry none .learned none true 0#12) (by decide)).2 (by decide)
  have stays : (outOfOrder.recordDamaged (.directory 3)).dir.map Prod.fst = [5, 3] := by decide
  have gone : ((({ outOfOrder with dir := tblDel outOfOrder.dir 3 } : State).notify .recordDamaged .none (.pair 11 3))).dir.map Prod.fst
      = [5] := by decide
  rw [claimed, gone] at stays
  exact absurd stays (by decide)

end Sys2Proof.StoreProofs
end
